-- ==== Sys2Proof/Word.lean ====
section
/-! DEFINITION. The words of the part: a byte of a memory block, a 32-bit counter or checksum. -/

namespace Sys2Proof

/-- One byte of a block (0.6: a block is 64 bytes). -/
abbrev Byte := BitVec 8

/-- A 32-bit value that wraps: a tick (R183), a checksum (0.7), a sequence number (R13), a report count (R189). -/
abbrev Word := BitVec 32

end Sys2Proof
end

