-- ==== Sys2Proof/Syntax.lean ====
section
/-! DEFINITION. The commands of the part: one constructor for each row of spec/opcode_table.json. The table gives no
operands; those here are the model's (log 6). -/

namespace Sys2Proof

/-- The 106 watched host records (R177). -/
inductive RecordId
  | header
  | window (n : Fin 16)
  | filter (n : Fin 16)
  | screenSet (n : Fin 8)
  | plate (n : Fin 64)
  | directory
  deriving DecidableEq, Repr

/-- What an open of the band expander opens: the band its cursor asks for, or one tone region (R55, R63). -/
inductive OpenTarget
  | band
  | tone (region : Fin 16)
  deriving DecidableEq, Repr

/-- One write block of a passing transaction (R1, R167): the source number, the block's address, its 64 bytes, its
64 strobes (strobe k is bit k) and whether it is the last block of its transaction. -/
structure WriteBlock where
  source  : Fin 16
  addr    : BitVec 40
  data    : Vector Byte 64
  strobes : BitVec 64
  last    : Bool
  deriving DecidableEq, Repr

/-- One read block of a passing transaction. `returned` lists the bytes that board memory returned otherwise than the
model's memory stands (R168, note to R55; log 4). -/
structure ReadBlock where
  source   : Fin 16
  addr     : BitVec 40
  last     : Bool
  returned : List Host.Cell
  deriving DecidableEq, Repr

/-- The commands. -/
inductive Instr
  /-- R184 -/
  | resetAssert
  /-- R184: the strapped values of CABASE[39:20] and TKDIV[15:0] -/
  | resetRelease (cabase : BitVec 20) (tkdiv : BitVec 16)
  /-- R185 -/
  | startUpSweepEnd
  /-- R183 -/
  | tick
  /-- R38 -/
  | gapTimerExpiry (slot : Fin 512)
  /-- R41: the entry's position in the orphan queue, 0 at the head -/
  | orphanExpiry (position : Nat)
  /-- R115 -/
  | armDeadline (plate : Fin 64)
  /-- R167 -/
  | upstreamWriteBlock (w : WriteBlock)
  /-- R167 -/
  | upstreamReadBlock (r : ReadBlock)
  /-- R168 -/
  | transactionResponse (source : Fin 16)
  /-- R177 -/
  | bodyWrite (w : WriteBlock)
  /-- R190: a write of the read-count block of the control header -/
  | readCountWrite (source : Fin 16) (data : Vector Byte 64) (strobes : BitVec 64) (last : Bool)
  /-- R195 -/
  | statusHeaderPosted
  /-- R27 -/
  | fileHead (stream : Fin 4)
  /-- R31 -/
  | fileBandTone (stream : Fin 4)
  /-- R43 -/
  | adoptionStart
  /-- R43 -/
  | adoptionComplete (returned : List Host.Cell)
  /-- R129 -/
  | plateWindowRead (r : ReadBlock)
  /-- R55 -/
  | openComplete (channel : Fin 2) (placement : Fin 4) (what : OpenTarget) (returned : List Host.Cell)
  /-- R138 -/
  | blockComposition (channel : Fin 2)
  /-- R181 -/
  | setParams
  /-- R186 -/
  | restart
  /-- R187 -/
  | restartSweepEnd
  /-- R180 -/
  | busyResult (record : RecordId)
  /-- R172 -/
  | windowLoad (n : Fin 16)
  /-- R174 -/
  | windowClose (n : Fin 16)
  /-- R17 -/
  | filterLoad (n : Fin 16)
  /-- R17 -/
  | filterDisable (n : Fin 16)
  /-- R90 -/
  | screenSetLoad (n : Fin 8)
  /-- R93 -/
  | loadComplete (n : Fin 8) (returned : List Host.Cell)
  /-- R96 -/
  | unload (n : Fin 8)
  /-- R105 -/
  | arm (n : Fin 64)
  /-- R120 -/
  | cancel (n : Fin 64)
  /-- R121 -/
  | release (n : Fin 64)
  /-- R45 -/
  | discardPage
  /-- R46 -/
  | discardEdition
  /-- R47 -/
  | clearCounters
  /-- R179 -/
  | unknownCommand (record : RecordId)
  deriving DecidableEq, Repr

end Sys2Proof
end

