-- ==== Sys2Proof/Config.lean ====
section
/-! DEFINITION. What the manual fixes for every part (0.6, 11.2), and the free value of the details it does not state. -/

namespace Sys2Proof.Config

/-- The detail word of a result for which no rule gives one (R203: the word holds a number "where the owning rule
gives one"). A free value: nothing says which word is written, and a fresh one may be written each time. Log 5. -/
opaque unstatedDetail : Nat → Word

/-- What a byte of board memory that nothing has written reads as. DESIGN CHOICE, unsafe: log 1. -/
def unwrittenByte : Byte := 0

/-- What every tile memory entry holds after hard reset (R101). -/
def resetThreshold : BitVec 12 := 4095

/-- Bytes in a block (0.6). -/
def blockBytes : Nat := 64

/-- One past the last address (0.6: an address is 40 bits). -/
def addressSpace : Nat := 2 ^ 40

/-- Bytes in the control area (0.6). -/
def controlArea : Nat := 1048576

/-- Largest payload of a parcel (0.6, R2). -/
def maxPayload : Nat := 1048576

/-- Entries in the report ring (0.6). -/
def ringEntries : Nat := 512

/-- Reports the hold queue has room for (R196). -/
def holdRoom : Nat := 511

/-- Entries the orphan queue has room for (R40). -/
def orphanRoom : Nat := 64

/-- Plates a channel's queue has room for (R112). -/
def queueRoom : Nat := 4

/-- Thresholds in one tile area (R86). -/
def areaEntries : Nat := 4096

/-- Greatest value of a 32-bit saturating counter (R23). -/
def max32 : Nat := 4294967295

/-- Greatest value of a 16-bit saturating counter (R104, R159, R191). -/
def max16 : Nat := 65535

/-- gap_ms after hard reset (R182). -/
def defaultGapMs : Nat := 5000

/-- orphan_ms after hard reset (R182). -/
def defaultOrphanMs : Nat := 30000

/-! Offsets of the regions of the control area (R202). -/

def offReadCount : Nat := 0x40
def offStatusHeader : Nat := 0x100
def offWindowRecords : Nat := 0x1000
def offWindowStatus : Nat := 0x1800
def offFilterRecords : Nat := 0x2000
def offFilterStatus : Nat := 0x2400
def offSetRecords : Nat := 0x3000
def offSetStatus : Nat := 0x3800
def offPlateRecords : Nat := 0x4000
def offPlateStatus : Nat := 0x8000
def offDirectory : Nat := 0xA000
def offDirectoryResult : Nat := 0xA040
def offReportRing : Nat := 0x10000
def offMirror : Nat := 0x20000

end Sys2Proof.Config
end

