-- ==== Sys2Proof/Machine/State.lean ====
section
/-! DEFINITION. The state of the part as plain data, every piece the spec names, and its value right after hard reset.
The fields that only upstream transactions, tile memory and the command queue need stand in `State`; everything the
blocks of the part share stands in `Part`. -/

namespace Sys2Proof.Machine

/-! ## Names (0.5, R208) -/

inductive EntryState | absent | good | crcBad | malformed | trampled | rereadBad
  deriving DecidableEq, Repr
inductive SlotState | free | filling | stalled | complete | superseded
  deriving DecidableEq, Repr
inductive PlateState | free | waiting | ready | queued | exposing | done | failed | cancelled
  deriving DecidableEq, Repr
inductive ChannelState | idle | primed | exposing | draining
  deriving DecidableEq, Repr
inductive ParserState | seek | hunt | payload
  deriving DecidableEq, Repr
inductive SetState | empty | loading | loaded
  deriving DecidableEq, Repr
inductive WindowState | inactive | active | closing
  deriving DecidableEq, Repr
inductive WindowClass | intake | plate
  deriving DecidableEq, Repr
inductive FilterAction | accept | reject
  deriving DecidableEq, Repr
inductive HoldPolicy | hold | proceed
  deriving DecidableEq, Repr
inductive DeadlineAction | fail | force
  deriving DecidableEq, Repr
inductive FailureCause | none | deadline | noScreen
  deriving DecidableEq, Repr
inductive ParcelKind | head | band | tone | fill
  deriving DecidableEq, Repr
inductive HeaderFault | partialStrobe | marker | headerCrc | length
  deriving DecidableEq, Repr
inductive FieldFault | kind | oversize | separation | version | page | index
  deriving DecidableEq, Repr
inductive BreakCause | partialStrobe | offSequence | closed
  deriving DecidableEq, Repr
inductive HeadInvalid | crc | toneCount | length | geometry | bandCount | region | scale
  deriving DecidableEq, Repr
inductive DropCause | crc | expired | trampled | full | stale | discard | freed | duplicate
  deriving DecidableEq, Repr
inductive DamageCause | crc | malformed | trampled | reread
  deriving DecidableEq, Repr
inductive FoundAt | filing | adoption | monitor | opened
  deriving DecidableEq, Repr
inductive StartCause | hardReset | restart
  deriving DecidableEq, Repr
inductive ReportClass | unclassed | intake | directory | plate | damage
  deriving DecidableEq, Repr
inductive ResultCode
  | noResult | done | busy | badParam | overlap | inUse | noScreen | areaTaken | pinned | unknown
  deriving DecidableEq, Repr

/-- The report kinds of R198. -/
inductive ReportKind
  | headerBad | parcelBroken | parcelInvalid | seqGap
  | pageOpened | pageComplete | pageStalled | pageIncomplete | pageSuperseded | pageRetired
  | headInvalid | directoryFull | headConflict | orphanDropped | bandRepaired
  | plateQueued | plateHeld | plateRepinned | platePageMismatch | plateStarted | plateMark
  | plateRestarted | plateDone | plateFailed | plateCancelled | remakeAfterStart | channelIdleRead
  | bandDamaged | damageRate | plateDamagedOutput | started | lost
  deriving DecidableEq, Repr

/-! ## Board memory and tile memory -/

/-- Board memory: (address, byte) pairs, addresses rising, no byte equal to what an unlisted address reads as. -/
abbrev Memory := List Host.Cell

/-- Tile memory: (entry, threshold) pairs in the same form; an unlisted entry holds 4095 (R86, R101). -/
abbrev TileMemory := List (Nat × BitVec 12)

/-! ## Reports (10.4, 11.7) -/

/-- The page form of R207: the fields of bytes 12 to 55. A field a kind does not carry stays 0. -/
structure PageForm where
  edition : Nat := 0
  zone    : Nat := 0
  sep     : Nat := 0
  page    : Nat := 0
  version : Nat := 0
  slot    : Nat := 0
  kind    : Nat := 0
  index   : Nat := 0
  stream  : Nat := 0
  cause   : Nat := 0
  flags   : Nat := 0
  source  : Nat := 0
  a       : Nat := 0
  b       : Nat := 0
  c       : Nat := 0
  d       : Nat := 0
  addr    : Nat := 0
  e       : Nat := 0
  deriving DecidableEq, Repr

/-- The plate form of R207: bytes 12 to 23, and the kind's own fields from byte 24. -/
structure PlateForm where
  label     : Nat := 0
  plate     : Nat := 0
  channel   : Nat := 0
  placement : Nat := 0
  forced    : Bool := false
  pass      : Nat := 0
  cause     : Nat := 0
  position  : Nat := 0
  tail      : List Byte := []
  deriving DecidableEq, Repr

/-- The subject area of a report in its three forms, with the state codes of PAGE_STALLED (R207). -/
inductive Subject
  | page (f : PageForm)
  | stalled (f : PageForm) (codes : List Nat)
  | plate (f : PlateForm)
  | started (cause : StartCause) (base tkdiv : Nat)
  | lost (count : Nat) (saturated : Bool) (first last : Word)
  deriving DecidableEq, Repr

/-- A report as raised: its kind, the tick at which it was raised, its subject (R198). -/
structure Report where
  kind    : ReportKind
  tick    : Word
  subject : Subject
  deriving DecidableEq, Repr

/-- The report unit (10.1, R199). `recent` counts the records written since the last reset, up to 512 (R190). -/
structure ReportUnit where
  written   : Word := 0
  posted    : Word := 0
  read      : Word := 0
  recent    : Nat := 0
  lost      : Nat := 0
  saturated : Bool := false
  firstLoss : Word := 0
  lastLoss  : Word := 0
  hold      : List Report := []
  damage    : Vector Nat 4 := Vector.replicate 4 0
  deriving DecidableEq, Repr

/-! ## Parcels and the directory -/

/-- A page identity (0.5). -/
structure Identity where
  edition : Nat := 0
  zone    : Nat := 0
  page    : Nat := 0
  sep     : Nat := 0
  deriving DecidableEq, Repr

/-- Where a payload lies: its address and length and the window it wraps in (R12, R146). -/
structure Location where
  addr : Nat := 0
  len  : Nat := 0
  base : Nat := 0
  size : Nat := 0
  deriving DecidableEq, Repr

/-- The source number and block address of a trample (R150). -/
structure Trample where
  source : Nat
  block  : Nat
  deriving DecidableEq, Repr

/-- The detail of a band or tone entry (2.1). -/
inductive Detail
  | none
  | computed (crc : Word)
  | offset (n : Nat)
  | trample (t : Trample)
  deriving DecidableEq, Repr

/-- A band or tone entry (2.1, R25). -/
structure Entry where
  state     : EntryState := .absent
  loc       : Location := {}
  storedCrc : Word := 0
  tick      : Word := 0
  stream    : Fin 4 := 0
  detail    : Detail := .none
  repeats   : Nat := 0
  deriving DecidableEq, Repr

/-- A tone region descriptor (R69). -/
structure Descriptor where
  x     : Nat := 0
  y     : Nat := 0
  w     : Nat := 0
  h     : Nat := 0
  scale : Nat := 0
  deriving DecidableEq, Repr

/-- The geometry of a page version: what its HEAD carries (R27, R69). -/
structure Geometry where
  width      : Nat := 0
  height     : Nat := 0
  bandHeight : Nat := 0
  bandCount  : Nat := 0
  toneCount  : Nat := 0
  regions    : Vector Descriptor 16 := Vector.replicate 16 {}
  deriving DecidableEq, Repr

/-- A page slot (2.1, R25). The defaults are the FREE contents. `deadline` is the gap timer: none when stopped. -/
structure Slot where
  state     : SlotState := .free
  id        : Identity := {}
  version   : Nat := 0
  alloc     : Word := 0
  change    : Word := 0
  filterHit : Nat := 0
  geom      : Geometry := {}
  bands     : Vector Entry 64 := Vector.replicate 64 {}
  tones     : Vector Entry 16 := Vector.replicate 16 {}
  pins      : Nat := 0
  deadline  : Option Word := none
  deriving DecidableEq, Repr

/-- Which entry of a slot: a band or a tone region with its index. -/
inductive EntryRef
  | band (b : Fin 64)
  | tone (r : Fin 16)
  deriving DecidableEq, Repr

/-- One allocation of a slot: its number and allocation number (R25). -/
structure SlotRef where
  slot  : Fin 512
  alloc : Word
  deriving DecidableEq, Repr

/-- A streaming verdict (R11); `malformed` carries the offset of the first violation. -/
inductive Verdict
  | notRun
  | good
  | malformed (offset : Nat)
  deriving DecidableEq, Repr

/-- The code in progress of a span validator, with the bytes of it read so far (R53). -/
inductive CodeInProgress
  | none
  | runBlank (at_ : Nat)
  | count (read : List Byte)
  | pairs (left : Nat) (first : Bool) (lastEnd : Nat) (read : List Byte)
  deriving DecidableEq, Repr

/-- A span validator (R53). `bad` is the first violation's offset. -/
structure SpanValidator where
  width     : Nat
  lineCount : Nat
  offset    : Nat := 0
  lines     : Nat := 0
  code      : CodeInProgress := .none
  anyCode   : Bool := false
  bad       : Option Nat := none
  deriving DecidableEq, Repr

/-- The fields of a parcel header (R200) and the block index it was found at (R6). -/
structure Header where
  kind       : Nat
  sep        : Nat
  version    : Nat
  sequence   : Word
  edition    : Nat
  zone       : Nat
  page       : Nat
  length     : Nat
  crc        : Word
  index      : Nat   -- bytes 28-29: band index, region index or page width
  height     : Nat   -- bytes 30-31
  bandHeight : Nat   -- bytes 32-33
  bandCount  : Nat   -- bytes 34-35
  toneCount  : Nat   -- bytes 36-37
  block      : Nat
  deriving DecidableEq, Repr

/-- A filter decision (1.1, R15): hit number 16 is the default action. -/
inductive Decision
  | none
  | accept (hit : Nat)
  | reject (hit : Nat)
  deriving DecidableEq, Repr

/-- The parser of one stream (1.1, R22). -/
structure Parser where
  state      : ParserState := .seek
  expected   : Nat := 0
  remaining  : Nat := 0
  crc        : Word := 0xFFFFFFFF
  header     : Option Header := none
  decision   : Decision := .none
  fieldFault : Option FieldFault := none
  verdict    : Verdict := .notRun
  validator  : Option SpanValidator := none
  slotRef    : Option SlotRef := none
  capture    : List Byte := []
  sequence   : Option Word := none
  filed      : Nat := 0
  rejected   : Nat := 0
  strays     : Nat := 0
  resyncs    : Nat := 0
  late       : Nat := 0
  deriving DecidableEq, Repr

/-- A finished parcel handed to the directory and not yet filed (R12), with its trampled mark (R152). -/
structure Parcel where
  stream      : Fin 4
  kind        : ParcelKind
  header      : Header
  hit         : Nat
  loc         : Location
  computedCrc : Word
  verdict     : Verdict
  slotRef     : Option SlotRef
  capture     : List Byte
  tick        : Word
  mark        : Option Trample := none
  deriving DecidableEq, Repr

/-- What an ADOPTING orphan is bound to (2.7); `begun` is set while its read-back is in flight (R43). -/
structure Binding where
  ref   : SlotRef
  begun : Bool := false
  mark  : Option Trample := none
  deriving DecidableEq, Repr

/-- An orphan queue entry (2.7): WAITING when `binding` is none, else ADOPTING. -/
structure Orphan where
  id        : Identity
  version   : Nat
  kind      : ParcelKind
  index     : Nat
  loc       : Location
  storedCrc : Word
  tick      : Word
  stream    : Fin 4
  expiry    : Word
  binding   : Option Binding := none
  deriving DecidableEq, Repr

/-- An acceptance filter entry (1.8); the defaults are those after hard reset (R18). -/
structure FilterEntry where
  enable      : Bool := false
  action      : FilterAction := .accept
  edition     : Nat := 0
  editionMask : Nat := 0
  zone        : Nat := 0
  zoneMask    : Nat := 0
  pageLow     : Nat := 1
  pageHigh    : Nat := 1
  seps        : BitVec 4 := 0
  hits        : Nat := 0
  deriving DecidableEq, Repr

/-! ## Plates -/

/-- A placement of a plate record (R103). -/
structure Placement where
  edition : Nat := 0
  zone    : Nat := 0
  page    : Nat := 0
  version : Nat := 0
  frameW  : Nat := 0
  frameH  : Nat := 0
  x0      : Nat := 0
  y0      : Nat := 0
  turned  : Bool := false
  deriving DecidableEq, Repr

/-- The internal copy of a plate record (R103, R104). The defaults stand where there is no copy. -/
structure PlateRecord where
  label      : Nat := 0
  channel    : Fin 2 := 0
  sep        : Nat := 0
  width      : Nat := 0
  height     : Nat := 0
  screenSet  : Fin 8 := 0
  hold       : HoldPolicy := .hold
  deadline   : Word := 0
  action     : DeadlineAction := .fail
  mark       : Nat := 0
  placements : List Placement := []
  deriving DecidableEq, Repr

/-- The resolution of a placement (R104, R205). `pinned`: resolved and holding its pin. `shown`: slot and version
name the slot it was last resolved to. -/
structure Resolution where
  shown    : Bool := false
  pinned   : Bool := false
  slot     : Fin 512 := 0
  alloc    : Word := 0
  version  : Nat := 0
  mismatch : Bool := false
  deriving DecidableEq, Repr

/-- The exposure summary of a plate (6.10). -/
structure Summary where
  startTick     : Word := 0
  endTick       : Word := 0
  lines         : Nat := 0
  blocks        : Nat := 0
  hatched       : Nat := 0
  restarts      : Nat := 0
  repinsAtStart : Nat := 0
  overruns      : Nat := 0
  checksum      : Word := 0
  valid         : Bool := false
  exposedForced : Bool := false
  deriving DecidableEq, Repr

/-- A plate (R104). The defaults are the FREE contents (R123). -/
structure Plate where
  state          : PlateState := .free
  copy           : PlateRecord := {}
  res            : Vector Resolution 4 := Vector.replicate 4 {}
  forced         : Bool := false
  deadlinePassed : Bool := false
  cause          : FailureCause := .none
  repins         : Nat := 0
  holds          : Nat := 0
  summary        : Summary := {}
  deriving DecidableEq, Repr

/-! ## Band expander and composer -/

/-- What an open captures from its entry at its start (R55). -/
structure Capture where
  loc : Location
  crc : Word
  deriving DecidableEq, Repr

/-- The open band of a cursor with its line state (R58). `line` is none before start. The line state is the decoder's
validator state of R53 too: `next` is the running offset; `line` and `runLeft` give the lines produced, and whether any
code has yet been read; `bad` is the first violation offset, and with it the verdict (`OpenBand.verdict`). A code is
read whole within one request, so none is in progress between two. -/
structure OpenBand where
  band        : Fin 64
  cap         : Capture
  interrupted : Bool := false
  line        : Option Nat := none
  next        : Nat := 0
  spans       : List (Nat × Nat) := []
  runLeft     : Nat := 0
  broken      : Bool := false
  bad         : Option Nat := none
  deriving DecidableEq, Repr

/-- An open in flight, or an open tone region: the entry, the captured copy, the interrupted mark (R56, R63). -/
structure Opening where
  entry       : EntryRef
  cap         : Capture
  interrupted : Bool := false
  deriving DecidableEq, Repr

/-- A line cursor (R58). `geom` and `version` are those of the slot it is pinned to. -/
structure Cursor where
  plate     : Fin 64
  placement : Fin 4
  ref       : SlotRef
  version   : Nat
  geom      : Geometry
  band      : Option OpenBand := none
  opening   : Option Opening := none
  regions   : List Opening := []
  regionOpenings : List Opening := []
  deriving DecidableEq, Repr

/-- What preparation has got for a band or region: still waiting for its open, the data, or nothing because the entry
was found in a state other than GOOD (R54, R60, R62, R64, R138). -/
inductive Answer (α : Type)
  | waiting
  | data (x : α)
  | broken
  | found (state : EntryState)
  deriving DecidableEq, Repr

/-- The samples fetched of one region row: column of the first one, and the bytes (R64). -/
structure Samples where
  firstCol : Nat
  bytes    : List Byte
  deriving DecidableEq, Repr

/-- What a block asked of one needed region (R63). -/
structure RegionNeed where
  region : Fin 16
  answer : Answer Samples
  deriving DecidableEq, Repr

/-- What a block asked of one resolved placement (R137): the page line, the page pixel range, the band's answer and
the needed regions. -/
structure PrepItem where
  placement : Fin 4
  line      : Nat
  low       : Nat
  high      : Nat
  band      : Fin 64
  spans     : Answer (List (Nat × Nat))
  regions   : List RegionNeed
  deriving DecidableEq, Repr

/-- The stage of a block in hand (R137, R138). -/
inductive BlockStage | preparation | composition
  deriving DecidableEq, Repr

/-- The snapshot of one resolved placement that a block meets (R138): its resolution, the state of its band entry, the
states of the tone region entries that preparation needed. -/
structure PlacementSnapshot where
  placement : Fin 4
  ref       : SlotRef
  band      : EntryState
  regions   : List (Fin 16 × EntryState)
  deriving DecidableEq, Repr

/-- The block a composer has in hand (7.1, R125): its stage, what preparation has got, and its snapshot once taken.
`live` is cleared when its plate is cancelled (R135). `held` is what a CANCEL keeps of a block still in preparation: the
states its entries had then, for the placements whose slot is freed before its snapshot is taken (log 12). -/
structure InHand where
  offset   : Nat
  plate    : Fin 64
  copy     : PlateRecord
  live     : Bool := true
  stage    : BlockStage := .preparation
  items    : List PrepItem
  snapshot : List PlacementSnapshot := []
  held     : List PlacementSnapshot := []
  deriving DecidableEq, Repr

/-- A channel: its READY list and queue (R111, R112), its composer (7.1) and the cursors of its plate (R58). -/
structure Channel where
  ready        : List (Fin 64) := []
  queue        : List (Fin 64) := []
  state        : ChannelState := .idle
  idlePending  : Bool := true
  idleReads    : Nat := 0
  drainReads   : Nat := 0
  pass         : Nat := 0
  nextOffset   : Nat := 0
  order        : Bool := false
  beyondZero   : Bool := false
  checksum     : Word := 0xFFFFFFFF
  markRaised   : Bool := false
  damageRaised : Bool := false
  inHand       : Option InHand := none
  cursors      : List Cursor := []
  deriving DecidableEq, Repr

/-! ## Screen unit -/

/-- A screen set (R76, R88). The defaults are the EMPTY contents. `table` is empty when there is no table. -/
structure ScreenSet where
  state       : SetState := .empty
  w           : Nat := 0
  h           : Nat := 0
  s           : Nat := 0
  start       : Nat := 0
  count       : Nat := 0
  points      : Vector Nat 17 := Vector.replicate 17 0
  trim        : Nat := 0
  minDot      : Nat := 0
  maxDot      : Nat := 0
  table       : List Nat := []
  trimClamped : Bool := false
  decreasing  : Bool := false
  clamps      : Nat := 0
  use         : Nat := 0
  source      : Nat := 0
  deriving DecidableEq, Repr

/-! ## Path and command unit -/

/-- A window (R171): its state and the internal copy of its record. -/
structure Window where
  state   : WindowState := .inactive
  cls     : Option WindowClass := none
  binding : Nat := 0
  base    : Nat := 0
  size    : Nat := 0
  deriving DecidableEq, Repr

/-- How far a record's command has come (R177, R178, R180): none; the record read issued; the same for a command that
a plant restart bars, because it was taken during one or before one and not yet dispatched; dispatched with its result
still to come; dispatched without acting, to be answered BUSY. -/
inductive CmdStage | unlocked | taken | barred | running | busy
  deriving DecidableEq, Repr

/-- The result fields of a record (R179, R203). -/
structure ResultFields where
  tag    : Byte := 0
  code   : ResultCode := .noResult
  detail : Word := 0
  deriving DecidableEq, Repr

/-- The command unit's hold on one host record (R177, R179). -/
structure CmdUnit where
  stage  : CmdStage := .unlocked
  copy   : List Byte := []
  result : ResultFields := {}
  deriving DecidableEq, Repr

/-- The six parameters (R181, R182). -/
structure Params where
  gapMs         : Nat := Config.defaultGapMs
  orphanMs      : Nat := Config.defaultOrphanMs
  threshold     : Nat := 0
  defaultAction : FilterAction := .accept
  suppress      : BitVec 4 := 0
  enable        : Byte := 0
  deriving DecidableEq, Repr

/-- The sweep that is running and how many of its records it has written (R185, R187). -/
inductive Sweep
  | none
  | startUp (written : Nat)
  | restart (written : Nat)
  deriving DecidableEq, Repr

/-- A write the part has issued to the memory port. A status-header rewrite names the written count it shows (R195). -/
inductive OwnWrite
  | statusHeader (written : Word)
  | status (r : RecordId)
  | result (r : RecordId)
  | mirror (slot : Fin 512) (block : Nat)
  | report (number : Word)
  deriving DecidableEq, Repr

/-- The requesters of the memory-port arbiter (R170). -/
inductive Requester | passing | own
  deriving DecidableEq, Repr

/-- The memory port: own writes issued and not yet answered, oldest first (R169, R195), and the last grant (R170). -/
structure Port where
  own       : List OwnWrite := []
  lastGrant : Requester := .own
  deriving DecidableEq, Repr

/-- Everything the blocks of the part hold between them. -/
@[ext]
structure Part where
  cabase    : BitVec 20 := 0
  tkdiv     : BitVec 16 := 0
  sweep     : Sweep := .startUp 0
  tick      : Word := 0
  mem       : Memory := []
  port      : Port := {}
  freeReads : Nat := 0
  reports   : ReportUnit := {}
  params    : Params := {}
  units     : Vector CmdUnit 106 := Vector.replicate 106 {}
  windows   : Vector Window 16 := Vector.replicate 16 {}
  filters   : Vector FilterEntry 16 := Vector.replicate 16 {}
  parsers   : Vector Parser 4 := Vector.replicate 4 {}
  transit   : List Parcel := []
  slots     : Vector Slot 512 := Vector.replicate 512 {}
  orphans   : List Orphan := []
  plates    : Vector Plate 64 := Vector.replicate 64 {}
  channels  : Vector Channel 2 := Vector.replicate 2 {}
  sets      : Vector ScreenSet 8 := Vector.replicate 8 {}
  owners    : Vector (Option (Fin 8)) 8 := Vector.replicate 8 none
  deriving DecidableEq, Repr

/-! ## Upstream transactions -/

/-- What has become of one block of a transaction (R168). -/
inductive BlockOutcome
  | refused
  | forwarded
  | data (bytes : List Byte)
  | composing (channel : Fin 2)
  deriving DecidableEq, Repr

/-- A transaction in flight: the blocks taken so far in address order (R168, R169). -/
structure Xfer where
  source : Fin 16
  isRead : Bool
  next   : Nat
  blocks : List BlockOutcome
  closed : Bool
  deriving DecidableEq, Repr

/-- The answer of a whole transaction (R168). -/
structure UpAnswer where
  source  : Fin 16
  isRead  : Bool
  refused : Bool
  data    : List (List Byte)
  deriving DecidableEq, Repr

/-! ## The machine -/

/-- The state of the part and the commands that wait for it, first in, first out. -/
@[ext]
structure State where
  resetn  : Bool
  part    : Part
  tiles   : TileMemory
  xfers   : List Xfer
  answer  : Option UpAnswer
  pending : List Instr
  deriving DecidableEq, Repr

/-- The stops of the part. -/
inductive Fault
  /-- Raised by the four commands that carry a block address when it is not a multiple of 64: no transaction has such
  a block (0.6). Safe: nothing is claimed of what cannot be sent. -/
  | unalignedBlock
  deriving DecidableEq, Repr

/-- The refusals. -/
inductive Refusal
  /-- Raised by exec for a command with no meaning yet; none is left. Safe. -/
  | notModelled (mnemonic : String)
  deriving DecidableEq, Repr

/-- The part right after the release of RESETn, its start-up sweep beginning (R184, R185). The straps are 0 here
(log 2) and memory lists nothing (log 1). -/
def State.reset : State :=
  { resetn := true, part := {}, tiles := [], xfers := [], answer := none, pending := [] }

end Sys2Proof.Machine
end

