-- ==== Sys2Proof/Machine/Ops.lean ====
section
/-! DEFINITION. The named operations over memory and the state's tables: the sparse stores, byte orders, the CRC-32,
payload locations and their extents, and one writer for each table of `Part`. -/

namespace Sys2Proof.Machine

/-! ## Sparse stores: board memory and tile memory -/

/-- What a store holds at a key; `d` is what an unlisted key holds. -/
def Store.read {α : Type} (d : α) : List (Nat × α) → Nat → α
  | [], _ => d
  | (k, v) :: m, a => if a = k then v else Store.read d m a

/-- The store with `v` at key `a`, in canonical form again: writing `d` removes the entry. -/
def Store.write {α : Type} [DecidableEq α] (d : α) : List (Nat × α) → Nat → α → List (Nat × α)
  | [], a, v => if v = d then [] else [(a, v)]
  | (k, w) :: m, a, v =>
    if a < k then (if v = d then (k, w) :: m else (a, v) :: (k, w) :: m)
    else if a = k then (if v = d then m else (a, v) :: m)
    else (k, w) :: Store.write d m a v

/-- Writes of successive keys from `a` upward. -/
def Store.writeList {α : Type} [DecidableEq α] (d : α) (m : List (Nat × α)) (a : Nat) : List α → List (Nat × α)
  | [] => m
  | v :: vs => Store.writeList d (Store.write d m a v) (a + 1) vs

/-- The canonical form: keys strictly rising, no entry equal to what an unlisted key holds. -/
abbrev Store.wf {α : Type} (d : α) (m : List (Nat × α)) : Prop :=
  m.Pairwise (fun x y => x.1 < y.1) ∧ ∀ c ∈ m, c.2 ≠ d

/-- Board memory's form. -/
abbrev Memory.wf (m : Memory) : Prop := Store.wf Config.unwrittenByte m

/-- One byte of board memory. -/
def Memory.read (m : Memory) (a : Nat) : Byte := Store.read Config.unwrittenByte m a

/-- One byte written. -/
def Memory.write (m : Memory) (a : Nat) (b : Byte) : Memory := Store.write Config.unwrittenByte m a b

/-- Bytes written from address `a` upward. -/
def Memory.writeBytes (m : Memory) (a : Nat) (bs : List Byte) : Memory :=
  Store.writeList Config.unwrittenByte m a bs

/-- The strobed bytes of a block written (R167: a forwarded write keeps its strobes). -/
def Memory.writeStrobed (m : Memory) (a : Nat) (data : Vector Byte 64) (strobes : BitVec 64) : Memory :=
  (List.finRange 64).foldl (fun m (k : Fin 64) => if strobes.getLsbD k then m.write (a + k) data[k] else m) m

/-- The bytes of `n` addresses from `a` upward. -/
def Memory.readBytes (m : Memory) (a n : Nat) : List Byte := (List.range n).map fun i => m.read (a + i)

/-- What the memory controller returns for one byte: what the command lists for it, else the model's memory (log 4). -/
def Memory.returned (m : Memory) (cells : List Host.Cell) (a : Nat) : Byte :=
  (cells.lookup a).getD (m.read a)

/-- Tile memory's form. -/
abbrev TileMemory.wf (t : TileMemory) : Prop := Store.wf Config.resetThreshold t

/-- One threshold of tile memory (R86). -/
def TileMemory.read (t : TileMemory) (e : Nat) : BitVec 12 := Store.read Config.resetThreshold t e

/-- Thresholds stored from entry `e` upward (R92). -/
def TileMemory.store (t : TileMemory) (e : Nat) (vs : List (BitVec 12)) : TileMemory :=
  Store.writeList Config.resetThreshold t e vs

/-! ## Byte orders (0.7) -/

/-- The `n` low bytes of `v`, least significant first (control-area records). -/
def leBytes : Nat → Nat → List Byte
  | 0, _ => []
  | n + 1, v => BitVec.ofNat 8 v :: leBytes n (v / 256)

/-- The number little-endian bytes spell. -/
def leNat : List Byte → Nat
  | [] => 0
  | b :: bs => b.toNat + 256 * leNat bs

/-- The number big-endian bytes spell (parcels). -/
def beNat (bs : List Byte) : Nat := bs.foldl (fun n b => 256 * n + b.toNat) 0

/-- Bytes `off` to `off + n - 1` of a record. -/
def fieldBytes (bs : List Byte) (off n : Nat) : List Byte := (bs.drop off).take n

/-- A little-endian field of a control-area record. -/
def leField (bs : List Byte) (off n : Nat) : Nat := leNat (fieldBytes bs off n)

/-- A big-endian field of a parcel. -/
def beField (bs : List Byte) (off n : Nat) : Nat := beNat (fieldBytes bs off n)

/-- `n` zero bytes (R205: 0 in every byte not assigned to a field). -/
def zeros (n : Nat) : List Byte := List.replicate n 0

/-- A record of exactly `n` bytes: zeros after the fields given. -/
def padTo (n : Nat) (bs : List Byte) : List Byte := bs ++ zeros (n - bs.length)

/-- A flag byte: 1 for set and 0 for clear (R205). -/
def flagByte (b : Bool) : List Byte := leBytes 1 b.toNat

/-! ## The CRC-32 (0.7) -/

/-- One step of the reflected division by 0x04C11DB7: 0xEDB88320 is that polynomial's bits in reverse order. -/
def crcBit (c : Word) : Word := if c.getLsbD 0 then (c >>> 1) ^^^ 0xEDB88320 else c >>> 1

/-- One byte taken, least significant bit first. -/
def crcByte (c : Word) (b : Byte) : Word :=
  crcBit (crcBit (crcBit (crcBit (crcBit (crcBit (crcBit (crcBit (c ^^^ b.setWidth 32))))))))

/-- Bytes taken into a running CRC. -/
def crcRun (c : Word) (bs : List Byte) : Word := bs.foldl crcByte c

/-- The CRC-32 of bytes: start 0xFFFFFFFF, complemented at the end. -/
def crc32 (bs : List Byte) : Word := ~~~ crcRun 0xFFFFFFFF bs

/-! ## Counters and deadlines -/

/-- A counter's next value, saturating at `max`. -/
def satInc (max n : Nat) : Nat := if n < max then n + 1 else n

/-- A deadline is reached when the signed 32-bit difference tick - deadline is zero or positive (0.7, R183). -/
def reached (tick deadline : Word) : Bool := !(tick - deadline).msb

/-- `a` lies ahead of `b`: the signed 32-bit difference a - b is above 0 (R190, R195). -/
def ahead (a b : Word) : Bool := a ≠ b && !(a - b).msb

/-- ceil (x / y) (0.7). -/
def ceilDiv (x y : Nat) : Nat := (x + y - 1) / y

/-! ## Payload locations and extents (1.1, R146) -/

/-- Address of the byte at a payload offset, wrapping at the window end. -/
def Location.byteAddr (l : Location) (off : Nat) : Nat := l.base + (l.addr - l.base + off) % l.size

/-- Blocks of the extent (R146). -/
def Location.blocks (l : Location) : Nat := ceilDiv l.len 64

/-- Address of the block that holds a payload offset (R163). -/
def Location.blockAddr (l : Location) (off : Nat) : Nat := l.byteAddr (off / 64 * 64)

/-- Index of a block within the extent, counted in successors from the payload address; none outside it (R146, R206). -/
def Location.extentIndex (l : Location) (block : Nat) : Option Nat :=
  if l.base ≤ block ∧ block < l.base + l.size then
    let d := (block + l.size - l.addr) % l.size
    if d % 64 = 0 ∧ d / 64 < l.blocks then some (d / 64) else none
  else none

/-- A block meets an extent when its address is one of the extent's blocks (R149). -/
def Location.meets (l : Location) (block : Nat) : Bool := (l.extentIndex block).isSome

/-- Index in its window of the header block in front of the payload (1.1, R6). -/
def Location.headerBlock (l : Location) : Nat :=
  ((l.addr - l.base) / 64 + l.size / 64 - 1) % (l.size / 64)

/-- A payload as the memory controller returns it (R43, R55). -/
def Memory.payload (m : Memory) (cells : List Host.Cell) (l : Location) : List Byte :=
  (List.range l.len).map fun i => m.returned cells (l.byteAddr i)

/-! ## Slots -/

/-- A slot that is FILLING, STALLED or COMPLETE is current (0.5). -/
def Slot.current (s : Slot) : Bool :=
  match s.state with
  | .filling => true
  | .stalled => true
  | .complete => true
  | .free => false
  | .superseded => false

/-- A slot that holds a page version is in use (2.1). -/
def Slot.inUse (s : Slot) : Bool := s.state != .free

/-- The in-use band entries, in order (2.1). -/
def Slot.bandList (s : Slot) : List Entry := s.bands.toList.take s.geom.bandCount

/-- The in-use tone entries, in order. -/
def Slot.toneList (s : Slot) : List Entry := s.tones.toList.take s.geom.toneCount

/-- The in-use entries, bands first. -/
def Slot.entryList (s : Slot) : List Entry := s.bandList ++ s.toneList

/-- A state other than GOOD and ABSENT is a failure state (0.5). -/
def EntryState.failed (e : EntryState) : Bool := e != .good && e != .absent

/-- Good entries (2.1). -/
def Slot.good (s : Slot) : Nat := s.entryList.countP fun e => e.state == .good

/-- Failed entries (2.1). -/
def Slot.failedEntries (s : Slot) : Nat := s.entryList.countP fun e => e.state.failed

/-- A slot whose in-use entries are all GOOD is whole (R35). -/
def Slot.whole (s : Slot) : Bool := s.inUse && s.entryList.all fun e => e.state == .good

/-- One entry of a slot. -/
def Slot.entry (s : Slot) : EntryRef → Entry
  | .band b => s.bands[b]
  | .tone r => s.tones[r]

/-- A slot with one entry replaced. -/
def Slot.setEntry (s : Slot) : EntryRef → Entry → Slot
  | .band b, e => { s with bands := s.bands.set b.val e b.isLt }
  | .tone r, e => { s with tones := s.tones.set r.val e r.isLt }

/-- Line count of a band: the band height, or what is left of the page for the last band (2.1). -/
def Geometry.lineCount (g : Geometry) (b : Nat) : Nat :=
  if b + 1 = g.bandCount then g.height - (g.bandCount - 1) * g.bandHeight else g.bandHeight

/-- Columns of a region's sample grid (R70). -/
def Descriptor.cols (d : Descriptor) : Nat := ceilDiv d.w d.scale

/-- Rows of a region's sample grid (R70). -/
def Descriptor.rows (d : Descriptor) : Nat := ceilDiv d.h d.scale

/-- A page pixel lies in the region's rectangle (R69). -/
def Descriptor.contains (d : Descriptor) (px py : Nat) : Bool :=
  d.x ≤ px && px < d.x + d.w && d.y ≤ py && py < d.y + d.h

/-! ## One writer for each table of the part -/

def Part.setSlot (p : Part) (n : Fin 512) (s : Slot) : Part := { p with slots := p.slots.set n.val s n.isLt }
def Part.setPlate (p : Part) (n : Fin 64) (x : Plate) : Part := { p with plates := p.plates.set n.val x n.isLt }
def Part.setChannel (p : Part) (k : Fin 2) (c : Channel) : Part :=
  { p with channels := p.channels.set k.val c k.isLt }
def Part.setSet (p : Part) (n : Fin 8) (x : ScreenSet) : Part := { p with sets := p.sets.set n.val x n.isLt }
def Part.setWindow (p : Part) (n : Fin 16) (w : Window) : Part := { p with windows := p.windows.set n.val w n.isLt }
def Part.setFilter (p : Part) (n : Fin 16) (f : FilterEntry) : Part :=
  { p with filters := p.filters.set n.val f n.isLt }
def Part.setParser (p : Part) (k : Fin 4) (x : Parser) : Part := { p with parsers := p.parsers.set k.val x k.isLt }
def Part.setUnit (p : Part) (i : Fin 106) (u : CmdUnit) : Part := { p with units := p.units.set i.val u i.isLt }
def Part.setReports (p : Part) (r : ReportUnit) : Part := { p with reports := r }
def Part.setOrphans (p : Part) (q : List Orphan) : Part := { p with orphans := q }
def Part.setTransit (p : Part) (q : List Parcel) : Part := { p with transit := q }
def Part.setOwners (p : Part) (o : Vector (Option (Fin 8)) 8) : Part := { p with owners := o }
def Part.setParams (p : Part) (x : Params) : Part := { p with params := x }
def Part.setSweep (p : Part) (x : Sweep) : Part := { p with sweep := x }

/-- The control-area base: bits 39 to 20 from CABASE, bits 19 to 0 zero (0.9, R202). -/
def Part.base (p : Part) : Nat := p.cabase.toNat * Config.controlArea

/-- The arbiter's choice (R170): the only requester that waits, else the one that was not granted last. -/
def arbitrate (last : Requester) (passingWaits ownWaits : Bool) : Option Requester :=
  match passingWaits, ownWaits, last with
  | false, false, _ => none
  | true, false, _ => some .passing
  | false, true, _ => some .own
  | true, true, .own => some .passing
  | true, true, .passing => some .own

/-- The port granted to one of the requesters that wait (R170). -/
def Port.grant (x : Port) (passingWaits ownWaits : Bool) : Port :=
  { x with lastGrant := (arbitrate x.lastGrant passingWaits ownWaits).getD x.lastGrant }

/-- Own traffic that waits alone is granted: the one command at work is the one requester (R170, log 15). -/
def Port.grantOwn (x : Port) : Port := x.grant false true

/-- Passing traffic that waits alone is granted (R170, log 15). -/
def Port.grantPassing (x : Port) : Port := x.grant true false

/-- Reads of the part's own traffic granted the port (R170): a record, an open or a decode, a read-back, a tile. -/
def Part.ownRead (p : Part) : Part := { p with port := p.port.grantOwn }

/-- A write of the part's own traffic, of `bytes` at offset `off` of the control area: issued after the own writes
before it (R169), granted to own traffic (R170), and in memory (log 8). -/
def Part.own (p : Part) (w : OwnWrite) (off : Nat) (bytes : List Byte) : Part :=
  { p with
    mem := p.mem.writeBytes (p.base + off) bytes
    port := { p.port.grantOwn with own := p.port.own ++ [w] } }

/-- A block of passing traffic forwarded to memory with its strobes (R167, R170). -/
def Part.forward (p : Part) (addr : Nat) (data : Vector Byte 64) (strobes : BitVec 64) : Part :=
  { p with
    mem := p.mem.writeStrobed addr data strobes
    port := p.port.grantPassing }

/-- The lowest number that meets a test. -/
def lowest {n : Nat} (test : Fin n → Bool) : Option (Fin n) := (List.finRange n).find? test

/-- An act for each number in ascending order. -/
def forEach {α : Type} (n : Nat) (act : α → Fin n → α) (p : α) : α := (List.finRange n).foldl act p

/-- The period of the tick in port clock cycles: TKDIV x 64, a TKDIV of 0 taken as 65 536 (R183). -/
def Part.tickPeriod (p : Part) : Nat := (if p.tkdiv = 0 then 65536 else p.tkdiv.toNat) * 64

end Sys2Proof.Machine
end

