-- ==== Sys2Proof/Machine/Flags.lean ====
section
/-! DEFINITION. Every flag the spec has the part compute: the interrupt line, suppression, presence flags of reports,
the flags packed into detail words and status records. -/

namespace Sys2Proof.Machine

/-- KINT is asserted while the interrupt enable is other than 0 and the posted count lies ahead of the read count (R195). -/
def Part.kint (p : Part) : Bool := p.params.enable != 0 && ahead p.reports.posted p.reports.read

/-- Unread records (10.1). -/
def ReportUnit.unread (r : ReportUnit) : Nat := (r.written - r.read).toNat

/-- The suppress flag of a class: bit 0 INTAKE, 1 DIRECTORY, 2 PLATE, 3 DAMAGE; the unclassed kinds have none
(R193, R204). -/
def Params.suppressed (x : Params) : ReportClass → Bool
  | .unclassed => false
  | .intake => x.suppress.getLsbD 0
  | .directory => x.suppress.getLsbD 1
  | .plate => x.suppress.getLsbD 2
  | .damage => x.suppress.getLsbD 3

/-- Presence flags of the page form: bit 0 block address, bit 1 origin is a source number, bit 2 computed CRC known,
bit 3 slot (R207). -/
def presence (addr source crc slot : Bool) : Nat :=
  addr.toNat + 2 * source.toNat + 4 * crc.toNat + 8 * slot.toNat

/-- Detail of SET_PARAMS DONE: bit 0 GAP_CLAMPED, bit 1 ORPHAN_CLAMPED (R203). -/
def paramsDetail (gapClamped orphanClamped : Bool) : Nat := gapClamped.toNat + 2 * orphanClamped.toNat

/-- Detail of RESTART IN_USE: one flag for each channel (R186, R203). -/
def restartDetail (channel0 channel1 : Bool) : Nat := channel0.toNat + 2 * channel1.toNat

/-- Detail of a screen set LOAD's DONE: clamp count, bit 16 TRIM_CLAMPED, bit 17 DECREASING (R93, R203). -/
def ScreenSet.loadDetail (s : ScreenSet) : Nat :=
  s.clamps + 65536 * s.trimClamped.toNat + 131072 * s.decreasing.toNat

/-- Curve flags of the status record: bit 0 TRIM_CLAMPED, bit 1 DECREASING (R205). -/
def ScreenSet.curveFlags (s : ScreenSet) : Nat := s.trimClamped.toNat + 2 * s.decreasing.toNat

/-- Two bytes packed: bits 0-7 and bits 8-15 (R203). -/
def packBytes (low high : Nat) : Nat := low + 256 * high

/-- Detail of DISCARD: bits 0-15 slots freed, bits 16-31 slots left pinned (R203). -/
def discardDetail (freed pinned : Nat) : Nat := freed + 65536 * pinned

/-- Flags of a placement in the plate status record (R205). -/
def Resolution.flags (r : Resolution) : Nat := r.shown.toNat + 2 * r.pinned.toNat + 4 * r.mismatch.toNat

/-- Flags of the plate status record: bit 0 forced, bit 1 deadline passed (R205). -/
def Plate.flags (x : Plate) : Nat := x.forced.toNat + 2 * x.deadlinePassed.toNat

/-- Flags of the summary: bit 0 checksum valid, bit 1 exposed forced (R205). -/
def Summary.flags (s : Summary) : Nat := s.valid.toNat + 2 * s.exposedForced.toNat

/-- DECREASING is set when P(k+1) < P(k) for at least one k in 0 to 15 (R78). -/
def decreasingPoints (points : List Nat) : Bool :=
  (points.zip points.tail).any fun q => q.2 < q.1

/-- One bit for each placement that meets a test (R207, PLATE_FAILED). -/
def placementBits (test : Fin 4 → Bool) : Nat :=
  (test 0).toNat + 2 * (test 1).toNat + 4 * (test 2).toNat + 8 * (test 3).toNat

end Sys2Proof.Machine
end

