-- ==== Sys2Proof/Machine/Operands.lean ====
section
/-! DEFINITION. Every form in which the part reads its operands: enumerated codes (R208), parcel headers and
descriptors (R200, R201), the control-area map (R202), command blocks (R203) and host records (R204). -/

namespace Sys2Proof.Machine

/-! ## Codes (R208) -/

def EntryState.code : EntryState → Nat
  | .absent => 0
  | .good => 1
  | .crcBad => 2
  | .malformed => 3
  | .trampled => 4
  | .rereadBad => 5

def SlotState.code : SlotState → Nat
  | .free => 0
  | .filling => 1
  | .stalled => 2
  | .complete => 3
  | .superseded => 4

def PlateState.code : PlateState → Nat
  | .free => 0
  | .waiting => 1
  | .ready => 2
  | .queued => 3
  | .exposing => 4
  | .done => 5
  | .failed => 6
  | .cancelled => 7

def ChannelState.code : ChannelState → Nat
  | .idle => 0
  | .primed => 1
  | .exposing => 2
  | .draining => 3

def ParserState.code : ParserState → Nat
  | .seek => 0
  | .hunt => 1
  | .payload => 2

def SetState.code : SetState → Nat
  | .empty => 0
  | .loading => 1
  | .loaded => 2

def WindowState.code : WindowState → Nat
  | .inactive => 0
  | .active => 1
  | .closing => 2

/-- The class of a window's copy; 0 after hard reset (R171). -/
def windowClassCode : Option WindowClass → Nat
  | none => 0
  | some .intake => 1
  | some .plate => 2

def FilterAction.code : FilterAction → Nat
  | .accept => 1
  | .reject => 2

def filterAction? : Nat → Option FilterAction
  | 1 => some .accept
  | 2 => some .reject
  | _ => none

def holdPolicy? : Nat → Option HoldPolicy
  | 1 => some .hold
  | 2 => some .proceed
  | _ => none

def deadlineAction? : Nat → Option DeadlineAction
  | 1 => some .fail
  | 2 => some .force
  | _ => none

def FailureCause.code : FailureCause → Nat
  | .none => 0
  | .deadline => 1
  | .noScreen => 2

def ParcelKind.code : ParcelKind → Nat
  | .head => 1
  | .band => 2
  | .tone => 3
  | .fill => 4

def parcelKind? : Nat → Option ParcelKind
  | 1 => some .head
  | 2 => some .band
  | 3 => some .tone
  | 4 => some .fill
  | _ => none

def HeaderFault.code : HeaderFault → Nat
  | .partialStrobe => 1
  | .marker => 2
  | .headerCrc => 3
  | .length => 4

def FieldFault.code : FieldFault → Nat
  | .kind => 1
  | .oversize => 2
  | .separation => 3
  | .version => 4
  | .page => 5
  | .index => 6

def BreakCause.code : BreakCause → Nat
  | .partialStrobe => 1
  | .offSequence => 2
  | .closed => 3

def HeadInvalid.code : HeadInvalid → Nat
  | .crc => 1
  | .toneCount => 2
  | .length => 3
  | .geometry => 4
  | .bandCount => 5
  | .region => 6
  | .scale => 7

def DropCause.code : DropCause → Nat
  | .crc => 1
  | .expired => 2
  | .trampled => 3
  | .full => 4
  | .stale => 5
  | .discard => 6
  | .freed => 7
  | .duplicate => 8

def DamageCause.code : DamageCause → Nat
  | .crc => 1
  | .malformed => 2
  | .trampled => 3
  | .reread => 4

def FoundAt.code : FoundAt → Nat
  | .filing => 1
  | .adoption => 2
  | .monitor => 3
  | .opened => 4

def StartCause.code : StartCause → Nat
  | .hardReset => 1
  | .restart => 2

def ReportClass.code : ReportClass → Nat
  | .unclassed => 0
  | .intake => 1
  | .directory => 2
  | .plate => 3
  | .damage => 4

def ResultCode.code : ResultCode → Nat
  | .noResult => 0
  | .done => 1
  | .busy => 2
  | .badParam => 3
  | .overlap => 4
  | .inUse => 5
  | .noScreen => 6
  | .areaTaken => 7
  | .pinned => 8
  | .unknown => 9

def ReportKind.code : ReportKind → Nat
  | .headerBad => 0x01
  | .parcelBroken => 0x02
  | .parcelInvalid => 0x03
  | .seqGap => 0x04
  | .pageOpened => 0x10
  | .pageComplete => 0x11
  | .pageStalled => 0x12
  | .pageIncomplete => 0x13
  | .pageSuperseded => 0x14
  | .pageRetired => 0x15
  | .headInvalid => 0x16
  | .directoryFull => 0x17
  | .headConflict => 0x18
  | .orphanDropped => 0x19
  | .bandRepaired => 0x1A
  | .plateQueued => 0x20
  | .plateHeld => 0x21
  | .plateRepinned => 0x22
  | .platePageMismatch => 0x23
  | .plateStarted => 0x24
  | .plateMark => 0x25
  | .plateRestarted => 0x26
  | .plateDone => 0x27
  | .plateFailed => 0x28
  | .plateCancelled => 0x29
  | .remakeAfterStart => 0x2A
  | .channelIdleRead => 0x2B
  | .bandDamaged => 0x30
  | .damageRate => 0x31
  | .plateDamagedOutput => 0x32
  | .started => 0x40
  | .lost => 0x41

/-- The class of each kind (R198). -/
def ReportKind.cls : ReportKind → ReportClass
  | .headerBad | .parcelBroken | .parcelInvalid | .seqGap => .intake
  | .pageOpened | .pageComplete | .pageStalled | .pageIncomplete | .pageSuperseded | .pageRetired
  | .headInvalid | .directoryFull | .headConflict | .orphanDropped | .bandRepaired => .directory
  | .plateQueued | .plateHeld | .plateRepinned | .platePageMismatch | .plateStarted | .plateMark
  | .plateRestarted | .plateDone | .plateFailed | .plateCancelled | .remakeAfterStart | .channelIdleRead => .plate
  | .bandDamaged | .damageRate | .plateDamagedOutput => .damage
  | .started | .lost => .unclassed

/-- The failure state a damage cause names (8.7). -/
def EntryState.damageCause : EntryState → DamageCause
  | .crcBad => .crc
  | .malformed => .malformed
  | .rereadBad => .reread
  | .trampled => .trampled
  | .absent => .crc
  | .good => .crc

/-- Parcel kind code and index of an entry. -/
def EntryRef.kindCode : EntryRef → Nat
  | .band _ => 2
  | .tone _ => 3

def EntryRef.index : EntryRef → Nat
  | .band b => b.val
  | .tone r => r.val

/-- The entry a BAND or TONE index names in a slot, when the index is below the slot's count (R31). -/
def Geometry.entryRef? (g : Geometry) (kind : ParcelKind) (index : Nat) : Option EntryRef :=
  match kind with
  | .band => if h : index < 64 then (if index < g.bandCount then some (.band ⟨index, h⟩) else none) else none
  | .tone => if h : index < 16 then (if index < g.toneCount then some (.tone ⟨index, h⟩) else none) else none
  | .head => none
  | .fill => none

/-! ## Parcel headers (R200) and descriptors (R201) -/

/-- The marker bytes of a header (1.2). -/
def headerMarker : List Byte := [0xA7, 0x5C, 0x3E, 0x91]

/-- The fields of a header block found at block index `block`. -/
def parseHeader (bs : List Byte) (block : Nat) : Header :=
  { kind := beField bs 4 1
    sep := beField bs 5 1
    version := beField bs 6 2
    sequence := BitVec.ofNat 32 (beField bs 8 4)
    edition := beField bs 12 2
    zone := beField bs 14 1
    page := beField bs 16 2
    length := beField bs 20 4
    crc := BitVec.ofNat 32 (beField bs 24 4)
    index := beField bs 28 2
    height := beField bs 30 2
    bandHeight := beField bs 32 2
    bandCount := beField bs 34 2
    toneCount := beField bs 36 2
    block := block }

/-- The header fault of a written block, by the tests of R2 in their order; none when it is a valid header. -/
def headerFault (bs : List Byte) (strobes : BitVec 64) : Option HeaderFault :=
  if strobes ≠ BitVec.allOnes 64 then some .partialStrobe
  else if bs.take 4 ≠ headerMarker then some .marker
  else if (crc32 (bs.take 60)).toNat ≠ beField bs 60 4 then some .headerCrc
  else if Config.maxPayload < beField bs 20 4 then some .length
  else none

/-- The field checks of R3 in their order, for a window of `n` blocks. -/
def Header.fieldFault (h : Header) (n : Nat) : Option FieldFault :=
  match parcelKind? h.kind with
  | none => some .kind
  | some k =>
    if n < 1 + ceilDiv h.length 64 then some .oversize
    else if k = .fill then none
    else if 3 < h.sep then some .separation
    else if h.version = 0 then some .version
    else if h.page < 1 ∨ 999 < h.page then some .page
    else none

/-- The identity a header carries. -/
def Header.id (h : Header) : Identity := { edition := h.edition, zone := h.zone, page := h.page, sep := h.sep }

/-- Descriptor `r` of a HEAD payload (R201). -/
def parseDescriptor (payload : List Byte) (r : Nat) : Descriptor :=
  { x := beField payload (12 * r) 2
    y := beField payload (12 * r + 2) 2
    w := beField payload (12 * r + 4) 2
    h := beField payload (12 * r + 6) 2
    scale := beField payload (12 * r + 8) 1 }

/-- The geometry a HEAD carries, its descriptors in region order (R29). -/
def headGeometry (h : Header) (capture : List Byte) : Geometry :=
  { width := h.index
    height := h.height
    bandHeight := h.bandHeight
    bandCount := h.bandCount
    toneCount := h.toneCount
    regions := Vector.ofFn fun r : Fin 16 => if r.val < h.toneCount then parseDescriptor capture r.val else {} }

/-! ## The control-area map (R176, R202) -/

/-- What a line of the control area is. -/
inductive Line
  | partOwned
  | record (r : RecordId) (block : Nat)
  | readCount
  | unwatched
  deriving DecidableEq, Repr

/-- Record of a region at an offset inside it. -/
def regionRecord (n : Nat) (hn : 0 < n) (size : Nat) (mk : Fin n → RecordId) (off : Nat) : Line :=
  .record (mk ⟨off / size % n, Nat.mod_lt _ hn⟩) (off % size / 64)

/-- The line at offset `off` of the control area. -/
def controlLine (off : Nat) : Line :=
  if off < 0x40 then .record .header 0
  else if off < 0x80 then .readCount
  else if 0x100 ≤ off ∧ off < 0x200 then .partOwned
  else if 0x1000 ≤ off ∧ off < 0x1800 then regionRecord 16 (by decide) 128 .window (off - 0x1000)
  else if 0x1800 ≤ off ∧ off < 0x1C00 then .partOwned
  else if 0x2000 ≤ off ∧ off < 0x2400 then regionRecord 16 (by decide) 64 .filter (off - 0x2000)
  else if 0x2400 ≤ off ∧ off < 0x2800 then .partOwned
  else if 0x3000 ≤ off ∧ off < 0x3800 then regionRecord 8 (by decide) 256 .screenSet (off - 0x3000)
  else if 0x3800 ≤ off ∧ off < 0x3A00 then .partOwned
  else if 0x4000 ≤ off ∧ off < 0x8000 then regionRecord 64 (by decide) 256 .plate (off - 0x4000)
  else if 0x8000 ≤ off ∧ off < 0xA000 then .partOwned
  else if 0xA000 ≤ off ∧ off < 0xA040 then .record .directory 0
  else if 0xA040 ≤ off ∧ off < 0xA080 then .partOwned
  else if 0x10000 ≤ off ∧ off < 0x18000 then .partOwned
  else if 0x20000 ≤ off ∧ off < 0xE0000 then .partOwned
  else .unwatched

end Sys2Proof.Machine

namespace Sys2Proof

/-- Number of a watched record among the 106 (R177). -/
def RecordId.number : RecordId → Fin 106
  | .header => 0
  | .window n => ⟨1 + n.val, by omega⟩
  | .filter n => ⟨17 + n.val, by omega⟩
  | .screenSet n => ⟨33 + n.val, by omega⟩
  | .plate n => ⟨41 + n.val, by omega⟩
  | .directory => 105

/-- Offset of a record in the control area (R202). -/
def RecordId.offset : RecordId → Nat
  | .header => 0
  | .window n => Config.offWindowRecords + 128 * n.val
  | .filter n => Config.offFilterRecords + 64 * n.val
  | .screenSet n => Config.offSetRecords + 256 * n.val
  | .plate n => Config.offPlateRecords + 256 * n.val
  | .directory => Config.offDirectory

/-- Size of a record (R176). -/
def RecordId.size : RecordId → Nat
  | .header => 64
  | .window _ => 128
  | .filter _ => 64
  | .screenSet _ => 256
  | .plate _ => 256
  | .directory => 64

/-- Offset of a record's status record, whose first block is its result block (R179, R202). -/
def RecordId.statusOffset : RecordId → Nat
  | .header => Config.offStatusHeader
  | .window n => Config.offWindowStatus + 64 * n.val
  | .filter n => Config.offFilterStatus + 64 * n.val
  | .screenSet n => Config.offSetStatus + 64 * n.val
  | .plate n => Config.offPlateStatus + 128 * n.val
  | .directory => Config.offDirectoryResult

end Sys2Proof

namespace Sys2Proof.Machine

/-! ## Command blocks (R203) -/

/-- The commands of the records. -/
inductive Command
  | setParams | restart
  | windowLoad | windowClose
  | filterLoad | filterDisable
  | setLoad | setUnload
  | arm | cancel | release
  | discardPage | discardEdition | clearCounters
  deriving DecidableEq, Repr

/-- The command a code names on a record; none where the record does not take it (R179, R203). -/
def command? : RecordId → Nat → Option Command
  | .header, 1 => some .setParams
  | .header, 2 => some .restart
  | .window _, 1 => some .windowLoad
  | .window _, 2 => some .windowClose
  | .filter _, 1 => some .filterLoad
  | .filter _, 2 => some .filterDisable
  | .screenSet _, 1 => some .setLoad
  | .screenSet _, 2 => some .setUnload
  | .plate _, 1 => some .arm
  | .plate _, 2 => some .cancel
  | .plate _, 3 => some .release
  | .directory, 1 => some .discardPage
  | .directory, 2 => some .discardEdition
  | .directory, 3 => some .clearCounters
  | _, _ => none

/-- The command code of a record's internal copy. -/
def CmdUnit.code (u : CmdUnit) : Nat := leField u.copy 0 1

/-- The tag of a record's internal copy. -/
def CmdUnit.tag (u : CmdUnit) : Byte := BitVec.ofNat 8 (leField u.copy 1 1)

/-! ## Host records (R204) -/

/-- The fields of a window record. -/
structure WindowFields where
  cls     : Nat
  binding : Nat
  base    : Nat
  size    : Nat
  deriving DecidableEq, Repr

def parseWindow (bs : List Byte) : WindowFields :=
  { cls := leField bs 2 1, binding := leField bs 3 1, base := leField bs 8 8, size := leField bs 16 8 }

/-- The class of a window record whose class and binding pass check 2 of R172. -/
def WindowFields.class? (f : WindowFields) : Option WindowClass :=
  if f.cls = 1 ∧ f.binding < 4 then some .intake
  else if f.cls = 2 ∧ f.binding < 2 then some .plate
  else none

/-- The fields of a filter record; the action is left as a number for the check of R17. -/
structure FilterFields where
  enable      : Bool
  action      : Nat
  edition     : Nat
  editionMask : Nat
  zone        : Nat
  zoneMask    : Nat
  pageLow     : Nat
  pageHigh    : Nat
  seps        : BitVec 4
  deriving DecidableEq, Repr

def parseFilter (bs : List Byte) : FilterFields :=
  { enable := leField bs 2 1 != 0
    action := leField bs 3 1
    edition := leField bs 4 2
    editionMask := leField bs 6 2
    zone := leField bs 8 1
    zoneMask := leField bs 9 1
    pageLow := leField bs 10 2
    pageHigh := leField bs 12 2
    seps := BitVec.ofNat 4 (leField bs 14 1) }

/-- The fields of a screen set record. -/
structure SetFields where
  start  : Nat
  w      : Nat
  h      : Nat
  s      : Nat
  trim   : Nat
  minDot : Nat
  maxDot : Nat
  source : Nat
  points : Vector Nat 17
  deriving DecidableEq, Repr

def parseSet (bs : List Byte) : SetFields :=
  { start := leField bs 2 1
    w := leField bs 4 2
    h := leField bs 6 2
    s := leField bs 8 2
    trim := leField bs 10 2
    minDot := leField bs 12 2
    maxDot := leField bs 14 2
    source := leField bs 16 8
    points := Vector.ofFn fun k : Fin 17 => leField bs (24 + 2 * k.val) 2 }

/-- The fields of one placement of a plate record. -/
structure PlacementFields where
  edition  : Nat
  zone     : Nat
  rotation : Nat
  page     : Nat
  version  : Nat
  frameW   : Nat
  frameH   : Nat
  x0       : Nat
  y0       : Nat
  deriving DecidableEq, Repr

def parsePlacement (bs : List Byte) (k : Nat) : PlacementFields :=
  let o := 64 + 32 * k
  { edition := leField bs o 2
    zone := leField bs (o + 2) 1
    rotation := leField bs (o + 3) 1
    page := leField bs (o + 4) 2
    version := leField bs (o + 6) 2
    frameW := leField bs (o + 8) 2
    frameH := leField bs (o + 10) 2
    x0 := leField bs (o + 12) 2
    y0 := leField bs (o + 14) 2 }

/-- The fields of a plate record; entries beyond the placement count are not read (R103). -/
structure PlateFields where
  channel    : Nat
  sep        : Nat
  label      : Nat
  width      : Nat
  height     : Nat
  screenSet  : Nat
  hold       : Nat
  action     : Nat
  count      : Nat
  deadline   : Nat
  mark       : Nat
  placements : List PlacementFields
  deriving DecidableEq, Repr

def parsePlate (bs : List Byte) : PlateFields :=
  { channel := leField bs 2 1
    sep := leField bs 3 1
    label := leField bs 4 4
    width := leField bs 8 2
    height := leField bs 10 2
    screenSet := leField bs 12 1
    hold := leField bs 13 1
    action := leField bs 14 1
    count := leField bs 15 1
    deadline := leField bs 16 4
    mark := leField bs 20 2
    placements := (List.range (min (leField bs 15 1) 4)).map (parsePlacement bs) }

/-- The fields of the header record (R181). -/
structure ParamFields where
  gapMs     : Nat
  orphanMs  : Nat
  threshold : Nat
  action    : Nat
  suppress  : BitVec 4
  enable    : Byte
  deriving DecidableEq, Repr

def parseParams (bs : List Byte) : ParamFields :=
  { gapMs := leField bs 4 4
    orphanMs := leField bs 8 4
    threshold := leField bs 12 2
    action := leField bs 14 1
    suppress := BitVec.ofNat 4 (leField bs 15 1)
    enable := BitVec.ofNat 8 (leField bs 16 1) }

/-- The fields of the directory command block. -/
structure DirectoryFields where
  sep     : Nat
  zone    : Nat
  edition : Nat
  page    : Nat
  version : Nat
  deriving DecidableEq, Repr

def parseDirectory (bs : List Byte) : DirectoryFields :=
  { sep := leField bs 2 1
    zone := leField bs 3 1
    edition := leField bs 4 2
    page := leField bs 6 2
    version := leField bs 8 2 }

end Sys2Proof.Machine
end

