-- ==== Sys2Proof/Machine/Records.lean ====
section
/-! DEFINITION. The records the part writes: status records (R205), the directory mirror (R206), report records (R207). -/

namespace Sys2Proof.Machine

/-- The command unit's hold on a record. -/
def Part.unit (p : Part) (r : RecordId) : CmdUnit := p.units[r.number]

/-- The same, replaced. -/
def Part.setRecord (p : Part) (r : RecordId) (u : CmdUnit) : Part := p.setUnit r.number u

/-- The result fields in the first eight bytes of a result block (R203). -/
def ResultFields.bytes (r : ResultFields) : List Byte :=
  r.tag :: (leBytes 1 r.code.code ++ zeros 2 ++ leBytes 4 r.detail.toNat)

/-- Result fields as every rewrite of a record carries them (R179). -/
def Part.resultBytes (p : Part) (r : RecordId) : List Byte := (p.unit r).result.bytes

/-! ## The status header (R205), in the groups in which it is rewritten -/

/-- The groups of status header fields: result and parameters (R179, R181), counts (R189, R190, R191), damage
counters (R159), one stream (R24), one channel (R144). -/
inductive HeaderGroup
  | params
  | counts
  | damage
  | stream (k : Fin 4)
  | channel (k : Fin 2)
  deriving DecidableEq, Repr

/-- Offset of a group in the status header. -/
def HeaderGroup.offset : HeaderGroup → Nat
  | .params => 0
  | .counts => 24
  | .damage => 44
  | .stream k => 64 + 40 * k.val
  | .channel k => 224 + 16 * k.val

def Part.paramBytes (p : Part) : List Byte :=
  p.resultBytes .header ++ leBytes 4 p.params.gapMs ++ leBytes 4 p.params.orphanMs ++ leBytes 2 p.params.threshold
    ++ leBytes 1 p.params.defaultAction.code ++ leBytes 1 p.params.suppress.toNat ++ [p.params.enable] ++ zeros 3

def ReportUnit.countBytes (r : ReportUnit) : List Byte :=
  leBytes 4 r.written.toNat ++ leBytes 4 r.read.toNat ++ leBytes 2 r.lost ++ flagByte r.saturated ++ zeros 1
    ++ leBytes 4 r.firstLoss.toNat ++ leBytes 4 r.lastLoss.toNat

def ReportUnit.damageBytes (r : ReportUnit) : List Byte :=
  leBytes 2 r.damage[0] ++ leBytes 2 r.damage[1] ++ leBytes 2 r.damage[2] ++ leBytes 2 r.damage[3] ++ zeros 12

def Parser.bytes (x : Parser) : List Byte :=
  leBytes 1 x.state.code ++ flagByte x.sequence.isSome ++ zeros 2 ++ leBytes 4 x.expected ++ leBytes 4 x.remaining
    ++ leBytes 4 (x.sequence.getD 0).toNat ++ leBytes 4 x.filed ++ leBytes 4 x.rejected ++ leBytes 4 x.strays
    ++ leBytes 4 x.resyncs ++ leBytes 4 x.late ++ zeros 4

/-- The head plate: the plate at the head of the queue (7.1). -/
def Channel.head (c : Channel) : Option (Fin 64) := c.queue.head?

/-- A channel's fields; no head plate is written 0xFF. -/
def Channel.bytes (c : Channel) : List Byte :=
  leBytes 1 c.state.code ++ leBytes 1 ((c.head.map fun n => n.val).getD 0xFF) ++ zeros 2 ++ leBytes 4 c.idleReads
    ++ leBytes 4 c.drainReads ++ zeros 4

def Part.groupBytes (p : Part) : HeaderGroup → List Byte
  | .params => p.paramBytes
  | .counts => p.reports.countBytes
  | .damage => p.reports.damageBytes
  | .stream k => p.parsers[k].bytes
  | .channel k => p.channels[k].bytes

/-! ## The other status records (R205) -/

def Window.bytes (w : Window) : List Byte :=
  leBytes 1 w.state.code ++ leBytes 1 (windowClassCode w.cls) ++ leBytes 1 w.binding ++ zeros 5 ++ leBytes 8 w.base
    ++ leBytes 8 w.size

def FilterEntry.bytes (f : FilterEntry) : List Byte :=
  flagByte f.enable ++ leBytes 1 f.action.code ++ leBytes 2 f.edition ++ leBytes 2 f.editionMask ++ leBytes 1 f.zone
    ++ leBytes 1 f.zoneMask ++ leBytes 2 f.pageLow ++ leBytes 2 f.pageHigh ++ leBytes 1 f.seps.toNat ++ zeros 3
    ++ leBytes 4 f.hits

def ScreenSet.bytes (s : ScreenSet) : List Byte :=
  leBytes 1 s.state.code ++ leBytes 1 s.start ++ leBytes 1 s.count ++ leBytes 1 s.curveFlags ++ leBytes 2 s.w
    ++ leBytes 2 s.h ++ leBytes 2 s.s ++ leBytes 2 s.trim ++ leBytes 2 s.minDot ++ leBytes 2 s.maxDot
    ++ leBytes 2 s.clamps ++ leBytes 1 s.use ++ zeros 1 ++ s.points.toList.flatMap (leBytes 2)

/-- Where a plate stands: in its channel's queue, on its READY list, or neither (R122, R205). -/
inductive Position
  | nowhere
  | queue (i : Nat)
  | ready (i : Nat)
  deriving DecidableEq, Repr

def Position.kind : Position → Nat
  | .nowhere => 0
  | .queue _ => 1
  | .ready _ => 2

def Position.index : Position → Nat
  | .nowhere => 0
  | .queue i => i
  | .ready i => i

/-- Position of a plate on its channel. -/
def Part.position (p : Part) (n : Fin 64) : Position :=
  let c := p.channels[p.plates[n].copy.channel]
  match c.queue.idxOf? n, c.ready.idxOf? n with
  | some i, _ => .queue i
  | none, some i => .ready i
  | none, none => .nowhere

/-- A placement's fields; no slot is written 0xFFFF. -/
def Resolution.bytes (r : Resolution) : List Byte :=
  leBytes 1 r.flags ++ zeros 1 ++ leBytes 2 (if r.shown then r.slot.val else 0xFFFF)
    ++ leBytes 2 (if r.shown then r.version else 0) ++ leBytes 4 (if r.shown then r.alloc.toNat else 0)

def Summary.bytes (s : Summary) : List Byte :=
  leBytes 4 s.startTick.toNat ++ leBytes 4 s.endTick.toNat ++ leBytes 4 s.lines ++ leBytes 4 s.blocks
    ++ leBytes 4 s.hatched ++ leBytes 2 s.restarts ++ leBytes 2 s.repinsAtStart ++ leBytes 4 s.overruns
    ++ leBytes 4 s.checksum.toNat ++ leBytes 1 s.flags

/-- Block 0 of a plate status record from byte 8. -/
def Plate.bytes (x : Plate) (pos : Position) : List Byte :=
  leBytes 1 x.state.code ++ leBytes 1 x.copy.channel.val ++ leBytes 1 x.cause.code ++ leBytes 1 x.flags
    ++ leBytes 1 pos.kind ++ leBytes 1 pos.index ++ zeros 2 ++ leBytes 4 x.copy.label ++ leBytes 2 x.repins
    ++ leBytes 2 x.holds ++ x.res.toList.flatMap Resolution.bytes

/-- A whole status record of a watched record: 256 bytes for the header, 128 for a plate, 64 for the others. -/
def Part.statusBytes (p : Part) : RecordId → List Byte
  | .header =>
    p.paramBytes ++ p.reports.countBytes ++ p.reports.damageBytes ++ p.parsers.toList.flatMap Parser.bytes
      ++ p.channels.toList.flatMap Channel.bytes
  | .window n => padTo 64 (p.resultBytes (.window n) ++ p.windows[n].bytes)
  | .filter n => padTo 64 (p.resultBytes (.filter n) ++ p.filters[n].bytes)
  | .screenSet n => padTo 64 (p.resultBytes (.screenSet n) ++ p.sets[n].bytes)
  | .plate n =>
    padTo 64 (p.resultBytes (.plate n) ++ p.plates[n].bytes (p.position n)) ++ padTo 64 p.plates[n].summary.bytes
  | .directory => padTo 64 (p.resultBytes .directory)

/-! ## The directory mirror (R206) -/

/-- The entry word. `block` trampling index is counted from the payload address. -/
def Entry.word (e : Entry) : Nat :=
  match e.state, e.detail with
  | .good, _ => e.storedCrc.toNat
  | .trampled, .trample t => (e.loc.extentIndex t.block).getD 0
  | _, .computed c => c.toNat
  | _, .offset n => n
  | _, .none => 0
  | _, .trample _ => 0

/-- Byte 1 of an entry: the arrival stream, and above it the trampling source for TRAMPLED. -/
def Entry.origin (e : Entry) : Nat :=
  match e.state, e.detail with
  | .trampled, .trample t => e.stream.val + 16 * t.source
  | _, _ => e.stream.val

/-- An entry's 16 bytes; byte 3 is the scale for a tone entry. -/
def Entry.bytes (e : Entry) (scale : Nat) : List Byte :=
  leBytes 1 e.state.code ++ leBytes 1 e.origin ++ leBytes 1 e.repeats ++ leBytes 1 scale ++ leBytes 5 e.loc.addr
    ++ leBytes 3 e.loc.len ++ leBytes 4 e.word

def Descriptor.bytes (d : Descriptor) : List Byte :=
  leBytes 2 d.x ++ leBytes 2 d.y ++ leBytes 2 d.w ++ leBytes 2 d.h

/-- A slot's mirror record, 1536 bytes. -/
def Slot.mirror (s : Slot) : List Byte :=
  padTo 64
    (leBytes 4 s.change.toNat ++ leBytes 4 s.alloc.toNat ++ leBytes 1 s.state.code ++ leBytes 1 s.id.sep
      ++ leBytes 1 s.id.zone ++ leBytes 1 s.filterHit ++ leBytes 2 s.id.edition ++ leBytes 2 s.id.page
      ++ leBytes 2 s.version ++ leBytes 2 s.geom.width ++ leBytes 2 s.geom.height ++ leBytes 2 s.geom.bandHeight
      ++ leBytes 1 s.geom.bandCount ++ leBytes 1 s.geom.toneCount ++ leBytes 2 s.pins ++ flagByte s.deadline.isSome
      ++ leBytes 1 s.good ++ leBytes 1 s.failedEntries ++ zeros 1 ++ leBytes 4 (s.deadline.getD 0).toNat)
    ++ s.bands.toList.flatMap (fun e => e.bytes 0)
    ++ (List.zipWith (fun (e : Entry) (d : Descriptor) => e.bytes d.scale) s.tones.toList s.geom.regions.toList).flatten
    ++ s.geom.regions.toList.flatMap Descriptor.bytes
    ++ padTo 64 (leBytes 4 s.change.toNat)

/-- Blocks of a mirror record. -/
def mirrorBlocks : Nat := 24

/-- Offset of block `b` of slot `n`'s mirror in the control area. -/
def mirrorOffset (n : Fin 512) (b : Nat) : Nat := Config.offMirror + 1536 * n.val + 64 * b

/-! ## Report records (R207) -/

def PageForm.bytes (f : PageForm) : List Byte :=
  leBytes 2 f.edition ++ leBytes 1 f.zone ++ leBytes 1 f.sep ++ leBytes 2 f.page ++ leBytes 2 f.version
    ++ leBytes 2 f.slot ++ leBytes 1 f.kind ++ leBytes 1 f.index ++ leBytes 1 f.stream ++ leBytes 1 f.cause
    ++ leBytes 1 f.flags ++ leBytes 1 f.source ++ leBytes 4 f.a ++ leBytes 4 f.b ++ leBytes 4 f.c ++ leBytes 4 f.d
    ++ leBytes 5 f.addr ++ zeros 3 ++ leBytes 4 f.e

/-- State codes two to a byte, the even position in the low half (PAGE_STALLED). -/
def nibbles : List Nat → List Byte
  | a :: b :: rest => leBytes 1 (a + 16 * b) ++ nibbles rest
  | [a] => leBytes 1 a
  | [] => []

def PlateForm.bytes (f : PlateForm) : List Byte :=
  leBytes 4 f.label ++ leBytes 1 f.plate ++ leBytes 1 f.channel ++ leBytes 1 f.placement ++ flagByte f.forced
    ++ leBytes 2 f.pass ++ leBytes 1 f.cause ++ leBytes 1 f.position ++ f.tail

/-- The subject area, from byte 12. -/
def Subject.bytes : Subject → List Byte
  | .page f => f.bytes
  | .stalled f codes => f.bytes.take 12 ++ nibbles codes
  | .plate f => f.bytes
  | .started cause base tkdiv =>
    leBytes 1 cause.code ++ zeros 3 ++ leBytes 5 base ++ zeros 3 ++ leBytes 2 tkdiv
  | .lost count saturated first last =>
    leBytes 2 count ++ flagByte saturated ++ zeros 1 ++ leBytes 4 first.toNat ++ leBytes 4 last.toNat

/-- A report record, 64 bytes. -/
def Report.bytes (r : Report) (number : Word) : List Byte :=
  (padTo 64
    (leBytes 1 r.kind.code ++ leBytes 1 r.kind.cls.code ++ zeros 2 ++ leBytes 4 number.toNat ++ leBytes 4 r.tick.toNat
      ++ r.subject.bytes)).take 64

/-- Offset of a report's ring entry in the control area (R189). -/
def ringOffset (number : Word) : Nat := Config.offReportRing + 64 * (number.toNat % Config.ringEntries)

end Sys2Proof.Machine
end

