-- ==== Sys2Proof/Machine/Reports.lean ====
section
/-! DEFINITION. The report unit (chapter 10), the rewrites of status records, and the results of commands (R179). -/

namespace Sys2Proof.Machine

/-! ## Rewrites -/

/-- A rewrite of a group of status header fields; it shows the written count as it stands (R195). -/
def Part.headerWrite (p : Part) (g : HeaderGroup) : Part :=
  p.own (.statusHeader p.reports.written) (Config.offStatusHeader + g.offset) (p.groupBytes g)

/-- A rewrite of a whole status record. -/
def Part.statusWrite (p : Part) : RecordId → Part
  | .header => p.own (.statusHeader p.reports.written) Config.offStatusHeader (p.statusBytes .header)
  | r => p.own (.status r) r.statusOffset (p.statusBytes r)

/-- A command's end: its result block is written with the tag, code and detail, and the record's lock ends as it is
issued (R178, R179). For the header record the result fields stand in the status header. -/
def Part.finish (p : Part) (r : RecordId) (code : ResultCode) (detail : Nat) : Part :=
  let u := p.unit r
  let p := p.setRecord r
    { u with stage := .unlocked, result := { tag := u.tag, code := code, detail := BitVec.ofNat 32 detail } }
  match r with
  | .header => p.headerWrite .params
  | r => p.own (.result r) r.statusOffset ((p.statusBytes r).take 64)

/-- A command's end with a result for which no rule gives the detail word: a free value (log 5). -/
def Part.finishFree (p : Part) (r : RecordId) (code : ResultCode) : Part :=
  { p with freeReads := p.freeReads + 1 }.finish r code (Config.unstatedDetail p.freeReads).toNat

/-! ## Taking a report -/

/-- A lost report (R191). -/
def Part.lose (p : Part) : Part :=
  let r := p.reports
  (p.setReports
    { r with
      firstLoss := if r.lost = 0 then p.tick else r.firstLoss
      lastLoss := p.tick
      lost := satInc Config.max16 r.lost
      saturated := r.saturated || r.lost == Config.max16 }).headerWrite .counts

/-- A record written to the ring: the record, the written count, the status header (R189). -/
def Part.writeReport (p : Part) (r : Report) : Part :=
  let n := p.reports.written
  let p := p.own (.report n) (ringOffset n) (r.bytes n)
  (p.setReports
    { p.reports with written := n + 1, recent := satInc Config.ringEntries p.reports.recent }).headerWrite .counts

/-- STARTED has not been written since the last reset: a sweep is running (R189, R196). -/
def Part.sweeping (p : Part) : Bool := p.sweep != .none

/-- A report taken, by the first case of R189 that applies. -/
def Part.takeReport (p : Part) (r : Report) : Part :=
  if p.params.suppressed r.kind.cls then p
  else if p.sweeping then
    if p.reports.hold.length < Config.holdRoom then p.setReports { p.reports with hold := p.reports.hold ++ [r] }
    else p.lose
  else if Config.ringEntries ≤ p.reports.unread then p.lose
  else p.writeReport r

/-- A report raised now. -/
def Part.raise (p : Part) (kind : ReportKind) (subject : Subject) : Part :=
  p.takeReport { kind := kind, tick := p.tick, subject := subject }

/-- The LOST record, and the counts it clears (R192). -/
def Part.writeLost (p : Part) : Part :=
  let r := p.reports
  let p := p.writeReport
    { kind := .lost, tick := p.tick, subject := .lost r.lost r.saturated r.firstLoss r.lastLoss }
  (p.setReports { p.reports with lost := 0, saturated := false }).headerWrite .counts

/-- What the read count becomes when the host writes `v` (R190). -/
def ReportUnit.readCount (r : ReportUnit) (v : Word) : Word :=
  if ahead v r.written then r.written
  else if r.recent < (r.written - v).toNat then r.written - BitVec.ofNat 32 r.recent
  else v

/-- A read count taken (R190), with the LOST record where losses wait and there is room (R192). No LOST record is
written before STARTED, which is report number 0 (R197). -/
def Part.takeReadCount (p : Part) (v : Word) : Part :=
  let p := (p.setReports { p.reports with read := p.reports.readCount v }).headerWrite .counts
  if (p.reports.lost ≠ 0 ∨ p.reports.saturated) ∧ p.reports.unread < Config.ringEntries ∧ p.sweeping = false then
    p.writeLost
  else p

/-- STARTED as the first record of the new numbering, then the held reports one by one (R196, R197). -/
def Part.raiseStarted (p : Part) (cause : StartCause) : Part :=
  let held := p.reports.hold
  let p := p.setReports { p.reports with hold := [] }
  let p := p.raise .started (.started cause p.base p.tkdiv.toNat)
  held.foldl Part.takeReport p

/-! ## Posting (R195) -/

/-- The own writes left when the oldest status header rewrite has been answered, and the written count it showed. -/
def postedWrite : List OwnWrite → Option (Word × List OwnWrite)
  | [] => none
  | .statusHeader n :: rest => some (n, rest)
  | .status _ :: rest => postedWrite rest
  | .result _ :: rest => postedWrite rest
  | .mirror _ _ :: rest => postedWrite rest
  | .report _ :: rest => postedWrite rest

/-- The memory controller has answered a status header rewrite, and with it every own write before it (R169, R195). -/
def Part.postHeader (p : Part) : Part :=
  match postedWrite p.port.own with
  | none => p
  | some (n, rest) =>
    { p with port := { p.port with own := rest }, reports := { p.reports with posted := n } }

/-! ## Common subjects -/

/-- The page form of a slot: identity, version and slot. -/
def Slot.form (s : Slot) (n : Fin 512) : PageForm :=
  { edition := s.id.edition, zone := s.id.zone, sep := s.id.sep, page := s.id.page, version := s.version
    slot := n.val, flags := presence false false false true }

/-- The page form of a page version that names no slot. -/
def pageForm (id : Identity) (version : Nat) : PageForm :=
  { edition := id.edition, zone := id.zone, sep := id.sep, page := id.page, version := version }

/-- The plate form of a plate: plate and label. -/
def Part.plateForm (p : Part) (n : Fin 64) : PlateForm :=
  { label := p.plates[n].copy.label, plate := n.val }

/-- The plate form with the plate's channel. -/
def Part.channelForm (p : Part) (n : Fin 64) : PlateForm :=
  { p.plateForm n with channel := p.plates[n].copy.channel.val }

end Sys2Proof.Machine
end

