-- ==== Sys2Proof/Machine/Directory.lean ====
section
/-! DEFINITION. The page directory's table operations: mirror writes (R48), searches (R26), pins (R26), freeing (R39),
the damage counters and the reports of damage (R34, R159 to R163). -/

namespace Sys2Proof.Machine

/-! ## Searches -/

/-- A table with its numbers. -/
def numbered {α : Type} {n : Nat} (v : Vector α n) : List (Fin n × α) := (List.finRange n).zip v.toList

/-- The lowest slot that meets a test. -/
def Part.findSlot (p : Part) (test : Slot → Bool) : Option (Fin 512) :=
  ((numbered p.slots).find? fun x => test x.2).map fun x => x.1

/-- The slots that meet a test, in ascending number. -/
def Part.slotsWhere (p : Part) (test : Slot → Bool) : List (Fin 512) :=
  ((numbered p.slots).filter fun x => test x.2).map fun x => x.1

/-- The current slot of an identity (R26). -/
def Part.currentSlot (p : Part) (id : Identity) : Option (Fin 512) := p.findSlot fun s => s.current && s.id == id

/-- The in-use slot of a page version (R26). -/
def Part.versionSlot (p : Part) (id : Identity) (version : Nat) : Option (Fin 512) :=
  p.findSlot fun s => s.inUse && s.id == id && s.version == version

/-- An in-use slot of the identity has a version not below this one (R27, R31). -/
def Part.outdated (p : Part) (id : Identity) (version : Nat) : Bool :=
  (p.findSlot fun s => s.inUse && s.id == id && decide (version ≤ s.version)).isSome

/-! ## Changes of a slot and its mirror (R48) -/

/-- A block of a slot's mirror record written. -/
def Part.mirrorBlock (p : Part) (n : Fin 512) (record : List Byte) (b : Nat) : Part :=
  p.own (.mirror n b) (mirrorOffset n b) (fieldBytes record (64 * b) 64)

/-- The blocks of a mirror record between its first and its last. -/
def bodyBlocks : List Nat := List.range' 1 (mirrorBlocks - 2)

/-- A slot's mirror record written in the order that a reader relies on: its last block, blocks of its body, its first
block (R48, R206). -/
def Part.mirrorWrite (p : Part) (n : Fin 512) (record : List Byte) (body : List Nat) : Part :=
  (body.foldl (fun p b => p.mirrorBlock n record b) (p.mirrorBlock n record (mirrorBlocks - 1))).mirrorBlock n record 0

/-- A change to a slot's fields and its mirror write: the change number, then the last block, the blocks of the body
whose contents changed, and the first block (R48). -/
def Part.changeSlot (p : Part) (n : Fin 512) (f : Slot → Slot) : Part :=
  let old := p.slots[n]
  let new := { f old with change := old.change + 1 }
  let changed := bodyBlocks.filter fun b => fieldBytes old.mirror (64 * b) 64 != fieldBytes new.mirror (64 * b) 64
  (p.setSlot n new).mirrorWrite n new.mirror changed

/-- The deadline of a gap timer started now (R37). -/
def Part.gapDeadline (p : Part) : Word := p.tick + BitVec.ofNat 32 p.params.gapMs

/-! ## Orphans (R41) -/

/-- The report of a dropped orphan, with the trample where one dropped it. -/
def Part.orphanDropped (p : Part) (o : Orphan) (cause : DropCause) (t : Option Trample) : Part :=
  p.raise .orphanDropped
    (.page { pageForm o.id o.version with
      kind := o.kind.code
      index := o.index % 256
      stream := o.stream.val
      cause := cause.code
      a := o.tick.toNat
      flags := presence t.isSome t.isSome false false
      source := (t.map fun t => t.source).getD 0
      addr := (t.map fun t => t.block).getD 0 })

/-- Two entries share identity, version, kind and index (R40). -/
def Orphan.sameKey (o x : Orphan) : Bool :=
  o.id == x.id && o.version == x.version && o.kind == x.kind && o.index == x.index

/-- The entry waits for its HEAD. -/
def Orphan.waiting (o : Orphan) : Bool := o.binding.isNone

/-- Every entry that meets a test leaves the queue with a report; the others close up (R41). The reports come in queue
order. R45 and R46 give that order for a DISCARD; for STALE orphans (R30) and for the adoptions that a freeing abandons
(R39) the spec gives none. DESIGN CHOICE, unsafe: log 42. -/
def Part.dropOrphans (p : Part) (test : Orphan → Bool) (cause : DropCause) : Part :=
  let dropped := p.orphans.filter test
  let p := p.setOrphans (p.orphans.filter fun o => !test o)
  dropped.foldl (fun p o => p.orphanDropped o cause none) p

/-! ## Freeing and pins -/

/-- The FREE contents of R25; the allocation and change numbers stay. -/
def Slot.freed (s : Slot) : Slot := { alloc := s.alloc, change := s.change }

/-- The entry is being adopted into this allocation. -/
def Orphan.boundTo (o : Orphan) (ref : SlotRef) : Bool :=
  match o.binding with
  | none => false
  | some b => b.ref == ref

/-- A slot freed (R39): its adoptions abandoned, the FREE contents, the mirror, PAGE_RETIRED. Its extents go with its
entries and its gap timer with its deadline. -/
def Part.freeSlot (p : Part) (n : Fin 512) : Part :=
  let s := p.slots[n]
  let p := p.dropOrphans (fun o => o.boundTo { slot := n, alloc := s.alloc }) .freed
  (p.changeSlot n Slot.freed).raise .pageRetired (.page { s.form n with cause := s.state.code })

/-- A pin taken on a slot (R26). -/
def Part.takePin (p : Part) (n : Fin 512) : Part := p.changeSlot n fun s => { s with pins := s.pins + 1 }

/-- A pin released; the release that brings a SUPERSEDED slot to 0 frees it (R26). -/
def Part.releasePin (p : Part) (n : Fin 512) : Part :=
  let p := p.changeSlot n fun s => { s with pins := s.pins - 1 }
  if p.slots[n].state = .superseded ∧ p.slots[n].pins = 0 then p.freeSlot n else p

/-! ## Damage (R34, R159 to R163) -/

/-- The damage counter of a separation. -/
def sepIndex (sep : Nat) : Fin 4 := ⟨sep % 4, Nat.mod_lt _ (by decide)⟩

/-- A damage counted: the counter and its field of the status header (R159). A saturated counter does not change. -/
def Part.countDamage (p : Part) (sep : Nat) : Part :=
  let i := sepIndex sep
  if p.reports.damage[i] < Config.max16 then
    (p.setReports
      { p.reports with damage := p.reports.damage.set i.val (p.reports.damage[i] + 1) i.isLt }).headerWrite .damage
  else p

/-- Where the damage of an entry comes from: the arrival stream of its copy or an upstream source number (R162). -/
inductive Origin
  | stream (k : Fin 4)
  | source (n : Nat)
  deriving DecidableEq, Repr

/-- What a BAND_DAMAGED carries beside its entry's own fields (R162). -/
structure DamageInfo where
  found    : FoundAt
  channel  : Nat := 0
  origin   : Origin
  block    : Nat
  computed : Option Word
  deriving DecidableEq, Repr

/-- The damage of an entry that has newly taken a failure state: its count, BAND_DAMAGED, and DAMAGE_RATE where the
count has reached a multiple of the threshold (R159, R160, R162, R164). -/
def Part.damaged (p : Part) (n : Fin 512) (ref : EntryRef) (d : DamageInfo) : Part :=
  let s := p.slots[n]
  let e := s.entry ref
  let old := p.reports.damage[sepIndex s.id.sep]
  let p := p.countDamage s.id.sep
  let new := p.reports.damage[sepIndex s.id.sep]
  let form := { s.form n with kind := ref.kindCode, index := ref.index }
  let p := p.raise .bandDamaged
    (.page { form with
      cause := e.state.damageCause.code
      stream := match d.origin with
        | .stream k => k.val
        | .source _ => 0
      source := match d.origin with
        | .stream _ => 0
        | .source x => x
      flags := presence true (match d.origin with
        | .stream _ => false
        | .source _ => true) d.computed.isSome true
      a := packBytes d.found.code d.channel
      b := e.storedCrc.toNat
      c := (d.computed.getD 0).toNat
      d := e.tick.toNat
      addr := d.block
      e := new })
  if old < new ∧ p.params.threshold ≠ 0 ∧ new % p.params.threshold = 0 then
    p.raise .damageRate (.page { form with a := new, b := p.params.threshold })
  else p

end Sys2Proof.Machine
end

