-- ==== Sys2Proof/Machine/PlateControl.lean ====
section
/-! DEFINITION. Plate control (chapter 6): resolution and pins, the READY lists and channel queues, admission to screen
sets (R89), deadlines, hold and follow newest. -/

namespace Sys2Proof.Machine

/-! ## Status and lists -/

/-- A plate's status record rewritten (R122). -/
def Part.plateStatus (p : Part) (n : Fin 64) : Part := p.statusWrite (.plate n)

/-- A change of a plate. -/
def Part.changePlate (p : Part) (n : Fin 64) (f : Plate → Plate) : Part := p.setPlate n (f p.plates[n])

/-- The channel of a plate. -/
def Part.channelOf (p : Part) (n : Fin 64) : Fin 2 := p.plates[n].copy.channel

/-- The channel state follows the queue (R113, R126): IDLE with an empty queue, PRIMED while the head is QUEUED. -/
def Channel.follow (c : Channel) : Channel :=
  match c.state, c.queue with
  | .idle, _ :: _ => { c with state := .primed }
  | .primed, [] => { c with state := .idle, idlePending := true }
  | _, _ => c

/-- The plates whose queue or READY list position differs between two states, in ascending number. -/
def movedPlates (old new : Part) : List (Fin 64) :=
  (List.finRange 64).filter fun n => old.position n != new.position n

/-- A channel replaced, its fields of the status header rewritten where its state or head plate changed (R144). -/
def Part.changeChannel (p : Part) (k : Fin 2) (f : Channel → Channel) : Part :=
  let old := p.channels[k]
  let p := p.setChannel k (f old)
  if (f old).state ≠ old.state ∨ (f old).head ≠ old.head then p.headerWrite (.channel k) else p

/-- A channel's READY list and queue changed: the channel follows, and the status record of every plate whose position
changed is rewritten (R111, R113, R122). -/
def Part.setLists (p : Part) (k : Fin 2) (ready queue : List (Fin 64)) : Part :=
  let q := p.changeChannel k fun c => { c with ready := ready, queue := queue }.follow
  (movedPlates p q).foldl Part.plateStatus q

/-- A plate taken off its channel's lists; those behind it close up (R111, R113). -/
def Part.leaveLists (p : Part) (n : Fin 64) : Part :=
  let k := p.channelOf n
  p.setLists k (p.channels[k].ready.filter (· != n)) (p.channels[k].queue.filter (· != n))

/-! ## Screen set use counts (R89) -/

/-- The set's use count and its status record (R89, R100). -/
def Part.changeUse (p : Part) (s : Fin 8) (f : Nat → Nat) : Part :=
  (p.setSet s { p.sets[s] with use := f p.sets[s].use }).statusWrite (.screenSet s)

/-- A plate leaves QUEUED or EXPOSING (R89). -/
def Part.dropUse (p : Part) (n : Fin 64) : Part := p.changeUse p.plates[n].copy.screenSet (· - 1)

/-! ## Resolution (R107) -/

/-- The placements of a plate's copy, with their numbers. -/
def PlateRecord.numberedPlacements (r : PlateRecord) : List (Fin 4 × Placement) :=
  (List.finRange 4).zip r.placements

/-- The page identity of a placement: with the plate's separation (R103). -/
def PlateRecord.identity (r : PlateRecord) (q : Placement) : Identity :=
  { edition := q.edition, zone := q.zone, page := q.page, sep := r.sep }

/-- The slot a placement looks for (R107). -/
def Part.lookFor (p : Part) (id : Identity) (version : Nat) : Option (Fin 512) :=
  if version = 0 then p.currentSlot id else p.versionSlot id version

/-- The resolution of a placement replaced. -/
def Plate.setRes (x : Plate) (k : Fin 4) (r : Resolution) : Plate := { x with res := x.res.set k.val r k.isLt }

/-- The mismatch report of a placement (R107). -/
def Part.mismatchSubject (p : Part) (n : Fin 64) (k : Fin 4) (q : Placement) (slot : Fin 512) : Subject :=
  let s := p.slots[slot]
  .plate { p.plateForm n with
    placement := k.val
    tail := leBytes 2 s.id.edition ++ leBytes 1 s.id.zone ++ leBytes 1 s.id.sep ++ leBytes 2 s.id.page
      ++ leBytes 2 slot.val ++ leBytes 2 s.version ++ leBytes 2 s.geom.width ++ leBytes 2 s.geom.height
      ++ leBytes 2 q.frameW ++ leBytes 2 q.frameH }

/-- A placement resolved to a slot of its size, with its pin; else its mismatch mark is set. The answer says whether
the sizes matched. -/
def Part.resolveTo (p : Part) (n : Fin 64) (k : Fin 4) (q : Placement) (slot : Fin 512) : Part × Bool :=
  let s := p.slots[slot]
  if s.geom.width = q.frameW ∧ s.geom.height = q.frameH then
    ((p.changePlate n fun x => x.setRes k
        { shown := true, pinned := true, slot := slot, alloc := s.alloc, version := s.version, mismatch := false }
      ).takePin slot, true)
  else (p.changePlate n fun x => x.setRes k { mismatch := true }, false)

/-- A placement resolved against one slot, the status record rewritten, and PLATE_PAGE_MISMATCH where it is due. -/
def Part.resolveNow (p : Part) (n : Fin 64) (k : Fin 4) (q : Placement) (slot : Fin 512) : Part :=
  match p.resolveTo n k q slot with
  | (p', true) => p'.plateStatus n
  | (p', false) => (p'.plateStatus n).raise .platePageMismatch (p'.mismatchSubject n k q slot)

/-- The pin of one placement released (R109); its slot and version stay shown. -/
def Part.unpin (p : Part) (n : Fin 64) (k : Fin 4) : Part :=
  let r := p.plates[n].res[k]
  if r.pinned then (p.changePlate n fun x => x.setRes k { r with pinned := false }).releasePin r.slot else p

/-- Every pin of a plate released in placement order (R109). -/
def Part.unpinAll (p : Part) (n : Fin 64) : Part := forEach 4 (fun p k => p.unpin n k) p

/-! ## READY (R110, R111) -/

/-- The slot of a resolved placement is whole (R35). -/
def Part.resolvedWhole (p : Part) (r : Resolution) : Bool := r.pinned && p.slots[r.slot].whole

/-- Every placement is resolved and every slot resolved to is whole (R110). -/
def Part.readyToRun (p : Part) (n : Fin 64) : Bool :=
  p.plates[n].copy.numberedPlacements.all fun x => p.resolvedWhole p.plates[n].res[x.1]

/-- A plate becomes READY and joins the tail of its channel's READY list (R111). -/
def Part.becomeReady (p : Part) (n : Fin 64) (forced : Bool) : Part :=
  let k := p.channelOf n
  let p := p.changePlate n fun x => { x with state := .ready, forced := forced }
  p.setLists k (p.channels[k].ready ++ [n]) p.channels[k].queue

/-! ## Failing and the deadline (R112, R115) -/

/-- A plate becomes FAILED: off the lists, its pins released (R109, R112, R115). -/
def Part.failState (p : Part) (n : Fin 64) (cause : FailureCause) : Part :=
  ((p.changePlate n fun x => { x with state := .failed, cause := cause }).leaveLists n).unpinAll n

/-- PLATE_FAILED (R207). -/
def Part.failReport (p : Part) (n : Fin 64) (cause : FailureCause) (tail : List Byte) : Part :=
  p.raise .plateFailed (.plate { p.plateForm n with cause := cause.code, tail := tail })

/-- A plate fails: FAILED, its status rewritten, PLATE_FAILED. -/
def Part.failPlate (p : Part) (n : Fin 64) (cause : FailureCause) (tail : List Byte) : Part :=
  ((p.failState n cause).plateStatus n).failReport n cause tail

/-- PLATE_FAILED for DEADLINE: the unresolved placements, and the resolved ones whose slot is whole (R115, R207). -/
def Part.deadlineTail (p : Part) (n : Fin 64) : List Byte :=
  let x := p.plates[n]
  leBytes 1 (placementBits fun k => decide (k.val < x.copy.placements.length) && !x.res[k].pinned)
    ++ leBytes 1 (placementBits fun k => decide (k.val < x.copy.placements.length) && p.resolvedWhole x.res[k])

/-- The deadline action of a WAITING plate (R115). -/
def Part.deadlineAction (p : Part) (n : Fin 64) : Part :=
  match p.plates[n].copy.action with
  | .fail => p.failPlate n .deadline (p.deadlineTail n)
  | .force => p.becomeReady n true

/-- An entry into WAITING (R110, R115): readiness first, then the deadline action where the flag is set. -/
def Part.enterWaiting (p : Part) (n : Fin 64) : Part :=
  if p.readyToRun n then p.becomeReady n false
  else if p.plates[n].deadlinePassed then p.deadlineAction n
  else p

/-- A READY or QUEUED plate goes back to WAITING: off its list, its set's use released, its forced flag cleared
(R113, R118). -/
def Part.backToWaiting (p : Part) (n : Fin 64) (f : Plate → Plate) : Part :=
  let queued := p.plates[n].state == .queued
  let p := p.changePlate n fun x => f { x with state := .waiting, forced := false }
  let p := p.leaveLists n
  if queued then p.dropUse n else p

/-! ## The queue (R112) -/

/-- The head of the READY list admitted to its screen set, or failed with NO_SCREEN (R89, R112). -/
def Part.admitHead (p : Part) (k : Fin 2) : Part :=
  match p.channels[k].ready with
  | [] => p
  | n :: rest =>
    let s := p.plates[n].copy.screenSet
    if p.sets[s].state = .loaded then
      let p := p.changeUse s (· + 1)
      let p := p.changePlate n fun x => { x with state := .queued }
      let p := p.setLists k rest (p.channels[k].queue ++ [n])
      p.raise .plateQueued
        (.plate { p.channelForm n with
          forced := p.plates[n].forced
          position := p.channels[k].queue.length - 1 })
    else p.failPlate n .noScreen []

/-- Admissions until the queue holds four plates or the list is empty. -/
def Part.admissions (p : Part) (k : Fin 2) : Nat → Part
  | 0 => p
  | n + 1 => if p.channels[k].queue.length < Config.queueRoom then (p.admitHead k).admissions k n else p

/-- The READY list feeds the queue (R112). -/
def Part.feed (p : Part) (k : Fin 2) : Part := p.admissions k p.channels[k].ready.length

/-- Both READY lists feed their queues, at the end of the event (log 10). -/
def Part.feedAll (p : Part) : Part := (p.feed 0).feed 1

/-! ## What the directory tells (R44) -/

/-- The plate has a placement pinned to the slot; the lowest-numbered one. -/
def Plate.pinnedTo (x : Plate) (slot : Fin 512) : Option (Fin 4) :=
  lowest fun k => x.res[k].pinned && x.res[k].slot == slot

/-- A slot is whole: every WAITING plate pinned to it that is ready to run becomes READY (R110). -/
def Part.tellWhole (p : Part) (slot : Fin 512) : Part :=
  (forEach 64 (fun (p : Part) n =>
    if p.plates[n].state = .waiting ∧ (p.plates[n].pinnedTo slot).isSome ∧ p.readyToRun n then p.becomeReady n false
    else p) p).feedAll

/-- Hold of one plate (R117). -/
def Part.holdPlate (p : Part) (n : Fin 64) (k : Fin 4) (slot : Fin 512) (ref : EntryRef) : Part :=
  let p := p.backToWaiting n fun x => { x with holds := satInc Config.max16 x.holds }
  let p := p.raise .plateHeld
    (.plate { p.plateForm n with
      placement := k.val
      tail := leBytes 2 slot.val ++ leBytes 2 p.slots[slot].version ++ leBytes 1 ref.kindCode
        ++ leBytes 1 ref.index })
  p.enterWaiting n

/-- The plate stands READY or QUEUED. -/
def Plate.listed (x : Plate) : Bool := x.state == .ready || x.state == .queued

/-- A slot is no longer whole: the hold policy (R117). -/
def Part.tellNotWhole (p : Part) (slot : Fin 512) (ref : EntryRef) : Part :=
  (forEach 64 (fun (p : Part) n =>
    match p.plates[n].pinnedTo slot with
    | none => p
    | some k =>
      if p.plates[n].listed && p.plates[n].copy.hold == .hold && !p.plates[n].forced then p.holdPlate n k slot ref
      else p) p).feedAll

/-- One follow-newest placement moved to the new slot (R118, steps 1 to 3). -/
def Part.repin (p : Part) (n : Fin 64) (k : Fin 4) (q : Placement) (slot : Fin 512) : Part :=
  let old := p.plates[n].res[k].slot
  let p := (p.resolveNow n k q slot).releasePin old
  (p.changePlate n fun x => { x with repins := satInc Config.max16 x.repins }).plateStatus n

/-- One placement's part of PLATE_REPINNED (R207): repinned or not, old and new slot and version. -/
def repinBytes (repinned : Bool) (old new : Resolution) : List Byte :=
  if repinned then
    leBytes 2 (1 + 2 * (!new.pinned).toNat) ++ leBytes 2 old.slot.val ++ leBytes 2 old.version
      ++ leBytes 2 (if new.pinned then new.slot.val else 0) ++ leBytes 2 (if new.pinned then new.version else 0)
  else zeros 10

/-- The placements of a plate that follow the newest version of an identity. -/
def PlateRecord.followers (r : PlateRecord) (id : Identity) : List (Fin 4 × Placement) :=
  r.numberedPlacements.filter fun x => x.2.version == 0 && r.identity x.2 == id

/-- A WAITING, READY or QUEUED plate's resolved followers repinned, PLATE_REPINNED, and its way back into WAITING
(R118). -/
def Part.repinPlate (p : Part) (n : Fin 64) (taken : List (Fin 4 × Placement)) (slot : Fin 512) : Part :=
  let before := p.plates[n].res
  let listed := p.plates[n].listed
  let p := taken.foldl (fun p x => p.repin n x.1 x.2 slot) p
  let after := p.plates[n].res
  let p := p.raise .plateRepinned
    (.plate { p.plateForm n with
      tail := (List.finRange 4).flatMap fun k =>
        repinBytes (taken.any fun x => x.1 == k) before[k] after[k] })
  if listed then (p.backToWaiting n id).enterWaiting n else p

/-- An EXPOSING plate's followers reported (R119). -/
def Part.remakeReports (p : Part) (n : Fin 64) (followers : List (Fin 4 × Placement)) (slot : Fin 512) : Part :=
  followers.foldl (fun p x =>
    let r := p.plates[n].res[x.1]
    let s := p.slots[slot]
    p.raise .remakeAfterStart
      (.plate { p.plateForm n with
        placement := x.1.val
        tail := leBytes 2 s.id.edition ++ leBytes 1 s.id.zone ++ leBytes 1 s.id.sep ++ leBytes 2 s.id.page
          ++ leBytes 2 (if r.pinned then r.version else 0) ++ leBytes 2 s.version })) p

/-- The plate waits or is listed: resolutions and repins act on it (R108, R118). -/
def Plate.open_ (x : Plate) : Bool := x.state == .waiting || x.listed

/-- R118 and R119 for one plate; the placements it took are added to `taken`. R119 names no pass: the REMAKE_AFTER_START
of an EXPOSING plate is raised at its place in R118's pass over the plates, between the PLATE_REPINNED of the plates
below and above it, and so before R108's pass. DESIGN CHOICE, unsafe: log 39. -/
def Part.followNewest (x : Part × List (Fin 64 × Fin 4)) (n : Fin 64) (slot : Fin 512) :
    Part × List (Fin 64 × Fin 4) :=
  let p := x.1
  let followers := p.plates[n].copy.followers p.slots[slot].id
  if p.plates[n].state = .exposing then (p.remakeReports n followers slot, x.2)
  else
    let resolved := followers.filter fun q => p.plates[n].res[q.1].pinned
    if p.plates[n].open_ && !resolved.isEmpty then
      (p.repinPlate n resolved slot, x.2 ++ resolved.map fun q => (n, q.1))
    else x

/-- A placement that R108 resolves: unresolved, of the new slot's identity, asking for any version or this one. -/
def Part.affected (p : Part) (n : Fin 64) (taken : List (Fin 64 × Fin 4)) (slot : Fin 512) (x : Fin 4 × Placement) :
    Bool :=
  !p.plates[n].res[x.1].pinned && p.plates[n].copy.identity x.2 == p.slots[slot].id
    && (x.2.version == 0 || x.2.version == p.slots[slot].version) && !taken.contains (n, x.1)

/-- R108 for one plate. -/
def Part.resolveWaiting (p : Part) (n : Fin 64) (taken : List (Fin 64 × Fin 4)) (slot : Fin 512) : Part :=
  if p.plates[n].open_ then
    let p := (p.plates[n].copy.numberedPlacements.filter (p.affected n taken slot)).foldl
      (fun p x => p.resolveNow n x.1 x.2 slot) p
    if p.plates[n].state = .waiting ∧ p.readyToRun n then p.becomeReady n false else p
  else p

/-- A new current slot (R44): R118 and R119 over all plates, then R108 over all plates. -/
def Part.tellCurrent (p : Part) (slot : Fin 512) : Part :=
  let x := forEach 64 (fun x n => Part.followNewest x n slot) (p, [])
  (forEach 64 (fun (p : Part) n => p.resolveWaiting n x.2 slot) x.1).feedAll

end Sys2Proof.Machine
end

