-- ==== Sys2Proof/Machine/Spans.lean ====
section
/-! DEFINITION. Span lists (3.1, 3.2): the streaming validator of R52 and R53 and the line decoder of R59. -/

namespace Sys2Proof.Machine

/-! ## The validator -/

/-- One pair of a SPANS code against R52: the end of the span, or none where a check fails. -/
def pairEnd (width : Nat) (first : Bool) (lastEnd gap len : Nat) : Option Nat :=
  if len = 0 then none
  else if !first && gap == 0 then none
  else if width < lastEnd + gap + len then none
  else some (lastEnd + gap + len)

/-- A code byte (R50, R52): UNKNOWN_CODE, FIRST_REPEAT and TRAILING all record the code byte. -/
def SpanValidator.codeByte (v : SpanValidator) (b : Byte) : SpanValidator :=
  if v.lineCount ≤ v.lines then { v with bad := some v.offset }
  else
    match b.toNat with
    | 0 => { v with lines := v.lines + 1, anyCode := true }
    | 1 => if v.anyCode then { v with lines := v.lines + 1 } else { v with bad := some v.offset }
    | 2 => { v with code := .count [], anyCode := true }
    | 3 => { v with code := .runBlank v.offset, anyCode := true }
    | _ => { v with bad := some v.offset }

/-- The byte of a RUN_BLANK (R52: RUN_ZERO, LINE_OVERFLOW). -/
def SpanValidator.runByte (v : SpanValidator) (at_ : Nat) (b : Byte) : SpanValidator :=
  if b = 0 ∨ v.lineCount < v.lines + b.toNat then { v with bad := some at_ }
  else { v with lines := v.lines + b.toNat, code := .none }

/-- A byte of a SPANS count (R52: COUNT). -/
def SpanValidator.countByte (v : SpanValidator) (read : List Byte) (b : Byte) : SpanValidator :=
  match read with
  | [] => { v with code := .count [b] }
  | _ :: _ =>
    let n := beNat (read ++ [b])
    if n = 0 ∨ 2048 < n then { v with bad := some (v.offset - 1) }
    else { v with code := .pairs n true 0 [] }

/-- A byte of a pair (R52: ZERO_LENGTH, ZERO_GAP, PAST_WIDTH). -/
def SpanValidator.pairByte (v : SpanValidator) (left : Nat) (first : Bool) (lastEnd : Nat) (read : List Byte)
    (b : Byte) : SpanValidator :=
  if read.length < 3 then { v with code := .pairs left first lastEnd (read ++ [b]) }
  else
    let bs := read ++ [b]
    match pairEnd v.width first lastEnd (beField bs 0 2) (beField bs 2 2) with
    | none => { v with bad := some (v.offset - 3) }
    | some e =>
      if left ≤ 1 then { v with lines := v.lines + 1, code := .none }
      else { v with code := .pairs (left - 1) false e [] }

/-- One byte of the payload; once a violation is recorded later bytes are taken without checks (R53). -/
def SpanValidator.feed (v : SpanValidator) (b : Byte) : SpanValidator :=
  let w :=
    match v.bad with
    | some _ => v
    | none =>
      match v.code with
      | .none => v.codeByte b
      | .runBlank at_ => v.runByte at_ b
      | .count read => v.countByte read b
      | .pairs left first lastEnd read => v.pairByte left first lastEnd read b
  { w with offset := v.offset + 1 }

/-- Bytes of the payload, in a piece of any size. -/
def SpanValidator.feedAll (v : SpanValidator) (bs : List Byte) : SpanValidator := bs.foldl SpanValidator.feed v

/-- The end checks: TRUNCATED and SHORT record the payload length (R52). -/
def SpanValidator.finish (v : SpanValidator) : SpanValidator :=
  match v.bad with
  | some _ => v
  | none => if v.code ≠ .none ∨ v.lines < v.lineCount then { v with bad := some v.offset } else v

/-- The verdict a validator stands at. -/
def SpanValidator.verdict (v : SpanValidator) : Verdict :=
  match v.bad with
  | none => .good
  | some o => .malformed o

/-- The verdict on a whole span list. -/
def spanVerdict (width lineCount : Nat) (bs : List Byte) : Verdict :=
  (({ width := width, lineCount := lineCount : SpanValidator }.feedAll bs).finish).verdict

/-! ## The decoder -/

/-- The spans of a SPANS code from its pairs, left to right (R51), or the offset of its first violation (R52): the pair
at `at_` that fails a check, or the payload length `len` where the payload ends inside the pairs. -/
def readPairs (width len : Nat) : Nat → Bool → Nat → Nat → List Byte → Except Nat (List (Nat × Nat))
  | 0, _, _, _, _ => .ok []
  | n + 1, first, lastEnd, at_, bs =>
    if bs.length < 4 then .error len
    else
      match pairEnd width first lastEnd (beField bs 0 2) (beField bs 2 2) with
      | none => .error at_
      | some e => (readPairs width len n false e (at_ + 4) (bs.drop 4)).map ((e - beField bs 2 2, e) :: ·)

/-- The open band broken by a violation whose offset is recorded (R53, R62). -/
def OpenBand.breakBand (b : OpenBand) (offset : Nat) : OpenBand := { b with broken := true, bad := some offset }

/-- The verdict the decoder stands at (R53). -/
def OpenBand.verdict (b : OpenBand) : Verdict :=
  match b.bad with
  | none => .good
  | some o => .malformed o

/-- The lines of the band produced so far. -/
def OpenBand.produced (b : OpenBand) : Nat := (b.line.map (· + 1)).getD 0

/-- The code at the decoder's position read, and its first line produced, with the checks of R52 (R59, R62). `c` is the
code byte, `rest` the payload after it, and `len` the payload length. -/
def OpenBand.readCode (b : OpenBand) (width lineCount len : Nat) (c : Byte) (rest : List Byte) : OpenBand :=
  let b' := { b with line := some b.produced }
  match c.toNat with
  | 0 => { b' with spans := [], next := b.next + 1 }
  | 1 => if b.line.isSome then { b' with next := b.next + 1 } else b.breakBand b.next
  | 2 =>
    let n := beField rest 0 2
    if rest.length < 2 then b.breakBand len
    else if n = 0 ∨ 2048 < n then b.breakBand (b.next + 1)
    else
      match readPairs width len n true 0 (b.next + 3) (rest.drop 2) with
      | .error o => b.breakBand o
      | .ok spans => { b' with spans := spans, next := b.next + 3 + 4 * n }
  | 3 =>
    let k := beField rest 0 1
    if rest.length < 1 then b.breakBand len
    else if k = 0 ∨ lineCount < b.produced + k then b.breakBand b.next
    else { b' with spans := [], runLeft := k - 1, next := b.next + 2 }
  | _ => b.breakBand b.next

/-- The decoder produces the next line of a band: from the run remainder, or from the next code of its payload
(R59). -/
def OpenBand.nextLine (b : OpenBand) (width lineCount : Nat) (payload : List Byte) : OpenBand :=
  if b.broken then b
  else if 0 < b.runLeft then { b with line := some b.produced, runLeft := b.runLeft - 1, spans := [] }
  else
    match payload.drop b.next with
    | [] => b.breakBand payload.length
    | c :: rest =>
      if lineCount ≤ b.produced then b.breakBand b.next
      else b.readCode width lineCount payload.length c rest

/-- `n` lines produced forward. -/
def OpenBand.forward (b : OpenBand) (width lineCount : Nat) (payload : List Byte) : Nat → OpenBand
  | 0 => b
  | n + 1 => (b.nextLine width lineCount payload).forward width lineCount payload n

/-- The decode position before start (R58, R59). -/
def OpenBand.restart (b : OpenBand) : OpenBand := { b with line := none, next := 0, spans := [], runLeft := 0 }

/-- A request for band line `j` (R59): the line most recently produced, a later one, or a restart of decoding. -/
def OpenBand.seek (b : OpenBand) (width lineCount : Nat) (payload : List Byte) (j : Nat) : OpenBand :=
  if b.broken then b
  else
    match b.line with
    | none => b.restart.forward width lineCount payload (j + 1)
    | some l =>
      if j = l then b
      else if l < j then b.forward width lineCount payload (j - l)
      else b.restart.forward width lineCount payload (j + 1)

/-- A request for band line `j` reads the payload: not under the broken mark (R62), not for the line most recently
produced, and not for lines that the run remainder gives (R59). -/
def OpenBand.reads (b : OpenBand) (j : Nat) : Bool :=
  !b.broken &&
    match b.line with
    | none => decide (0 < b.cap.loc.len)
    | some l => if j < l then decide (0 < b.cap.loc.len) else decide (l + b.runLeft < j ∧ b.next < b.cap.loc.len)

/-- Spans clipped to a pixel range (R60). -/
def clipSpans (spans : List (Nat × Nat)) (low high : Nat) : List (Nat × Nat) :=
  spans.filterMap fun s =>
    if max s.1 low < min s.2 high then some (max s.1 low, min s.2 high) else none

end Sys2Proof.Machine
end

