-- ==== Sys2Proof/Machine/Filing.lean ====
section
/-! DEFINITION. What the directory does with copies: a judged copy applied (R33 to R35), an entry leaving GOOD (R36),
the filing of HEAD, BAND and TONE parcels (R27 to R32, R40, R153), adoption (R42, R43), the trample monitor (R149 to
R155). -/

namespace Sys2Proof.Machine

/-! ## Judged copies -/

/-- The judgement of a copy: GOOD, or a failure state with its detail and the computed CRC where it is known
(R32, R163). -/
inductive Judgement
  | good
  | failed (state : EntryState) (detail : Detail) (computed : Option Word)
  deriving DecidableEq, Repr

/-- A judged copy on its way to its entry. -/
structure Copy where
  loc       : Location
  storedCrc : Word
  tick      : Word
  stream    : Fin 4
  judged    : Judgement
  found     : FoundAt
  deriving DecidableEq, Repr

/-- The computed CRC differs (R32, test 1). -/
def Judgement.crcBad (computed : Word) : Judgement := .failed .crcBad (.computed computed) (some computed)

/-- MALFORMED; the computed CRC equals the stored one (R163). -/
def Judgement.malformed (offset : Nat) (stored : Word) : Judgement :=
  .failed .malformed (.offset offset) (some stored)

/-- A trampled mark takes the place of the judgement (R43, R153). -/
def Judgement.trampled (t : Trample) (computed : Option Word) : Judgement := .failed .trampled (.trample t) computed

/-- A TONE copy judged by its length (R32, R71). -/
def toneJudgement (d : Descriptor) (length : Nat) (stored : Word) : Judgement :=
  if length = d.rows * d.cols then .good else .malformed length stored

/-- The entry a copy makes of an entry that it enters (R33). -/
def Copy.entry (c : Copy) : Entry :=
  { state := match c.judged with
      | .good => .good
      | .failed st _ _ => st
    loc := c.loc
    storedCrc := c.storedCrc
    tick := c.tick
    stream := c.stream
    detail := match c.judged with
      | .good => .none
      | .failed _ d _ => d }

/-- Origin of the damage of a copy: the trampling source, else the arrival stream (R163). -/
def Copy.origin (c : Copy) : Origin :=
  match c.judged with
  | .failed _ (.trample t) _ => .source t.source
  | _ => .stream c.stream

/-- Block address of the damage of a copy (R163): the trampling block; for a violation the block that holds its offset,
the last one for an offset at the payload's end; else the first payload block. A tone length names the first block. -/
def Copy.block (c : Copy) (ref : EntryRef) : Nat :=
  match c.judged, ref with
  | .failed _ (.trample t) _, _ => t.block
  | .failed _ (.offset o) _, .band _ => c.loc.blockAddr (min o (c.loc.len - 1))
  | _, _ => c.loc.blockAddr 0

/-- The computed CRC a copy's damage carries (R163). -/
def Copy.computed (c : Copy) : Option Word :=
  match c.judged with
  | .good => none
  | .failed _ _ x => x

/-- A copy applied to its entry, by the entry's state (R33, R34). A failed copy on an entry whose repeat failures stand
at 255 changes no field, and the mirror is written and the change number advances all the same; R48 asks a mirror write
for a change and does not speak of this. DESIGN CHOICE, unsafe: log 43. -/
def Part.applyCopy (p : Part) (n : Fin 512) (ref : EntryRef) (c : Copy) : Part :=
  let old := p.slots[n].entry ref
  match old.state with
  | .good => p
  | .absent =>
    let p := p.changeSlot n fun s => s.setEntry ref c.entry
    match c.judged with
    | .good => p
    | .failed _ _ _ =>
      p.damaged n ref { found := c.found, origin := c.origin, block := c.block ref, computed := c.computed }
  | failure =>
    match c.judged with
    | .failed _ _ _ => p.changeSlot n fun s => s.setEntry ref { old with repeats := satInc 255 old.repeats }
    | .good =>
      let p := p.changeSlot n fun s => s.setEntry ref c.entry
      p.raise .bandRepaired
        (.page { p.slots[n].form n with
          kind := ref.kindCode
          index := ref.index
          stream := c.stream.val
          cause := failure.code
          a := old.repeats
          b := c.tick.toNat })

/-- The slot's state after a parcel has been filed into it (R35, R37); plate control is told of a slot that has become
whole (R44). -/
def Part.slotFollows (p : Part) (n : Fin 512) (wasWhole : Bool) : Part :=
  let s := p.slots[n]
  match s.state with
  | .free => p
  | .complete => p
  | .superseded => if s.whole && !wasWhole then p.tellWhole n else p
  | _ =>
    if s.whole then
      let p := p.changeSlot n fun s => { s with state := .complete, deadline := none }
      (p.raise .pageComplete (.page (s.form n))).tellWhole n
    else p.changeSlot n fun s => { s with state := .filling, deadline := some p.gapDeadline }

/-- A copy filed into a slot: applied, and the slot follows. -/
def Part.fileCopy (p : Part) (n : Fin 512) (ref : EntryRef) (c : Copy) : Part :=
  (p.applyCopy n ref c).slotFollows n p.slots[n].whole

/-! ## An entry leaves GOOD (R36) -/

/-- An open of this entry is marked interrupted (R56, R57, R63). -/
def Opening.interruptIf (o : Opening) (ref : EntryRef) : Opening :=
  if o.entry = ref then { o with interrupted := true } else o

/-- A cursor pinned to the slot whose entry leaves GOOD: its open band, its opens in flight and its regions are marked
interrupted where they are of that entry (R56, R57, R65). -/
def Cursor.interrupt (c : Cursor) (slot : SlotRef) (ref : EntryRef) : Cursor :=
  if c.ref = slot then
    { c with
      band := c.band.map fun b => if ref = .band b.band then { b with interrupted := true } else b
      opening := c.opening.map fun o => o.interruptIf ref
      regions := c.regions.map fun o => o.interruptIf ref
      regionOpenings := c.regionOpenings.map fun o => o.interruptIf ref }
  else c

/-- Every cursor of both channels. -/
def Part.interruptCursors (p : Part) (slot : SlotRef) (ref : EntryRef) : Part :=
  { p with
    channels := p.channels.map fun c => { c with cursors := c.cursors.map fun x => x.interrupt slot ref } }

/-- A GOOD entry takes a failure state: cursors interrupted, the mirror, the damage, the slot's state, plate control
(R36, R164). -/
def Part.leaveGood (p : Part) (n : Fin 512) (ref : EntryRef) (state : EntryState) (detail : Detail) (d : DamageInfo) :
    Part :=
  let s := p.slots[n]
  let wasWhole := s.whole
  let p := p.interruptCursors { slot := n, alloc := s.alloc } ref
  let p := p.changeSlot n fun s => s.setEntry ref { s.entry ref with state := state, detail := detail, repeats := 0 }
  let p := p.damaged n ref d
  let p :=
    if s.state = .complete then
      let p := p.changeSlot n fun s => { s with state := .filling, deadline := some p.gapDeadline }
      p.raise .pageIncomplete (.page { s.form n with kind := ref.kindCode, index := ref.index })
    else p
  if wasWhole then p.tellNotWhole n ref else p

/-! ## Filing a HEAD (R27 to R30) -/

/-- The descriptors of a HEAD in region order, where its payload lists them all. -/
def headDescriptors (h : Header) (capture : List Byte) : List Descriptor :=
  (List.range h.toneCount).map (parseDescriptor capture)

/-- The first field in which a duplicate HEAD differs from its slot (R27, R208). -/
def headConflict (h : Header) (capture : List Byte) (crcGood : Bool) (g : Geometry) : Option Nat :=
  if h.index ≠ g.width then some 1
  else if h.height ≠ g.height then some 2
  else if h.bandHeight ≠ g.bandHeight then some 3
  else if h.bandCount ≠ g.bandCount then some 4
  else if h.toneCount ≠ g.toneCount then some 5
  else if crcGood ∧ h.length = 12 * h.toneCount then
    (lowest fun r : Fin 16 => decide (r.val < h.toneCount) && parseDescriptor capture r.val != g.regions[r]).map
      fun r => 16 + r.val
  else none

/-- A descriptor's rectangle lies in the page (R28). -/
def Descriptor.inPage (d : Descriptor) (h : Header) : Bool :=
  1 ≤ d.w && 1 ≤ d.h && d.x + d.w ≤ h.index && d.y + d.h ≤ h.height

/-- Why a new HEAD is invalid, with the region index (R28); none when it is valid. -/
def headInvalid (h : Header) (capture : List Byte) (computed : Word) : Option (HeadInvalid × Nat) :=
  if computed ≠ h.crc then some (.crc, 0)
  else if 16 < h.toneCount then some (.toneCount, 0)
  else if h.length ≠ 12 * h.toneCount then some (.length, 0)
  else if h.index < 1 ∨ 32768 < h.index ∨ h.height < 1 ∨ 32768 < h.height ∨ h.bandHeight < 1 ∨ 1024 < h.bandHeight
    then some (.geometry, 0)
  else if h.bandCount ≠ ceilDiv h.height h.bandHeight ∨ 64 < h.bandCount then some (.bandCount, 0)
  else
    let ds := headDescriptors h capture
    match ds.findIdx? fun d => !d.inPage h with
    | some r => some (.region, r)
    | none =>
      match ds.findIdx? fun d => !(decide (1 ≤ d.scale) && decide (d.scale ≤ 16)) with
      | some r => some (.scale, r)
      | none => none

/-- Block address of a parcel's header. -/
def Parcel.headerAddr (c : Parcel) : Nat := c.loc.base + 64 * c.header.block

/-- The slot as a HEAD sets it up (R29): its allocation number incremented. -/
def Slot.opened (s : Slot) (c : Parcel) (deadline : Word) : Slot :=
  { state := .filling
    id := c.header.id
    version := c.header.version
    alloc := s.alloc + 1
    change := s.change
    filterHit := c.hit
    geom := headGeometry c.header c.capture
    deadline := some deadline }

/-- The old current slot superseded, and freed where nothing is pinned to it (R30, step 1). -/
def Part.supersede (p : Part) (old new : Fin 512) : Part :=
  let o := p.slots[old]
  let p := p.changeSlot old fun s => { s with state := .superseded, deadline := none }
  let p := p.raise .pageSuperseded (.page { p.slots[new].form new with a := old.val, b := o.version })
  if p.slots[old].pins = 0 then p.freeSlot old else p

/-- The WAITING orphans of a page version become ADOPTING, bound to its slot (R30, step 3; R42). -/
def Part.adoptOrphans (p : Part) (id : Identity) (version : Nat) (ref : SlotRef) : Part :=
  p.setOrphans
    (p.orphans.map fun o =>
      if o.waiting && o.id == id && o.version == version then { o with binding := some { ref := ref } } else o)

/-- A valid new HEAD opens a slot (R29), and the filing goes on (R30). -/
def Part.openPage (p : Part) (c : Parcel) (n : Fin 512) : Part :=
  let id := c.header.id
  let old := p.currentSlot id
  let p := p.changeSlot n fun s => s.opened c p.gapDeadline
  let p := p.raise .pageOpened
    (.page { p.slots[n].form n with a := c.header.bandCount, b := c.header.toneCount })
  let p :=
    match old with
    | none => p
    | some m => p.supersede m n
  let p := p.dropOrphans (fun o => o.waiting && o.id == id && decide (o.version < c.header.version)) .stale
  let p := p.adoptOrphans id c.header.version { slot := n, alloc := p.slots[n].alloc }
  p.tellCurrent n

/-- A HEAD whose page version a slot holds: the comparison, then the gap timer (R27, case 1). -/
def Part.duplicateHead (p : Part) (c : Parcel) (n : Fin 512) : Part :=
  let s := p.slots[n]
  let p :=
    match headConflict c.header c.capture (c.computedCrc == c.header.crc) s.geom with
    | none => p
    | some field => p.raise .headConflict (.page { s.form n with stream := c.stream.val, cause := field })
  p.slotFollows n s.whole

/-- The page form of a parcel that names no slot. -/
def Parcel.form (c : Parcel) : PageForm := { pageForm c.header.id c.header.version with stream := c.stream.val }

/-- A valid new HEAD with the lowest FREE slot, or with none (R27, cases 4 and 5). -/
def Part.openLowest (p : Part) (c : Parcel) : Option (Fin 512) → Part
  | none => p.raise .directoryFull (.page c.form)
  | some n => p.openPage c n

/-- A HEAD of a new page version (R27, cases 3 to 5). -/
def Part.newHead (p : Part) (c : Parcel) : Part :=
  match headInvalid c.header c.capture c.computedCrc with
  | some (cause, r) =>
    p.raise .headInvalid
      (.page { c.form with
        cause := cause.code, index := r, addr := c.headerAddr, flags := presence true false false false })
  | none => p.openLowest c (p.findSlot fun s => s.state == .free)

/-- A HEAD filed, with the in-use slot of its page version if there is one (R27). -/
def Part.fileHeadIn (p : Part) (c : Parcel) : Option (Fin 512) → Part
  | some n => p.duplicateHead c n
  | none => if p.outdated c.header.id c.header.version then p else p.newHead c

/-- A HEAD filed by the first case of R27 that applies. -/
def Part.fileHead (p : Part) (c : Parcel) : Part := p.fileHeadIn c (p.versionSlot c.header.id c.header.version)

/-! ## Filing bands and tones (R31, R32, R40, R153) -/

/-- PARCEL_INVALID for an index, by the directory (R31, R40, R43). -/
def Part.badIndex (p : Part) (id : Identity) (version : Nat) (kind : ParcelKind) (index : Nat) (stream : Fin 4)
    (headerBlock : Nat) (slot : Option (Fin 512)) : Part :=
  p.raise .parcelInvalid
    (.page { pageForm id version with
      kind := kind.code
      index := index % 256
      stream := stream.val
      cause := FieldFault.index.code
      a := headerBlock
      b := index
      slot := (slot.map fun n => n.val).getD 0
      flags := presence false false false slot.isSome })

/-- A finished parcel as an orphan queue entry (R40). -/
def Parcel.orphan (c : Parcel) (binding : Option Binding) (orphanMs : Nat) : Orphan :=
  { id := c.header.id
    version := c.header.version
    kind := c.kind
    index := c.header.index
    loc := c.loc
    storedCrc := c.header.crc
    tick := c.tick
    stream := c.stream
    expiry := c.tick + BitVec.ofNat 32 orphanMs
    binding := binding }

/-- A new entry at the tail; with 64 entries the oldest WAITING one is dropped first, or the candidate where all are
ADOPTING (R40, step 4). -/
def Part.enterOrphan (p : Part) (o : Orphan) : Part :=
  if p.orphans.length < Config.orphanRoom then p.setOrphans (p.orphans ++ [o])
  else
    match p.orphans.find? Orphan.waiting with
    | none => p.orphanDropped o .full none
    | some x => ((p.setOrphans (p.orphans.erase x ++ [o])).orphanDropped x .full none)

/-- The greatest index an orphan of a kind may have, plus one (R40). -/
def ParcelKind.indexLimit : ParcelKind → Nat
  | .band => 64
  | .tone => 16
  | .head => 0
  | .fill => 0

/-- An orphan candidate enters the queue (R40), its trampled mark decided after the index check (R153). -/
def Part.orphanCandidate (p : Part) (c : Parcel) : Part :=
  let o := c.orphan none p.params.orphanMs
  if c.kind.indexLimit ≤ c.header.index then
    p.badIndex o.id o.version c.kind c.header.index c.stream c.header.block none
  else if c.mark.isSome then p.orphanDropped o .trampled c.mark
  else if c.computedCrc ≠ c.header.crc then p.orphanDropped o .crc none
  else
    match p.orphans.find? o.sameKey with
    | none => p.enterOrphan o
    | some x =>
      if x.waiting then p.setOrphans (p.orphans.map fun y => if o.sameKey y then o else y)
      else p.orphanDropped o .duplicate none

/-- A BAND copy enters the queue ADOPTING, bound to the slot it was routed to (R32, step 4; R40). -/
def Part.lateValidation (p : Part) (c : Parcel) (n : Fin 512) : Part :=
  let o := c.orphan (some { ref := { slot := n, alloc := p.slots[n].alloc } }) p.params.orphanMs
  if p.orphans.any o.sameKey then p.orphanDropped o .duplicate none else p.enterOrphan o

/-- The judgement of a copy routed to a slot (R32, R153), or none where it goes to late validation. -/
def judgeCopy (c : Parcel) (s : Slot) (ref : EntryRef) (here : SlotRef) : Option Judgement :=
  match c.mark with
  | some t => some (.trampled t (some c.computedCrc))
  | none =>
    if c.computedCrc ≠ c.header.crc then some (.crcBad c.computedCrc)
    else
      match ref with
      | .tone r =>
        if c.slotRef = some here ∧ c.verdict = .good then some .good
        else if c.slotRef = some here ∧ c.verdict ≠ .notRun then some (.malformed c.loc.len c.header.crc)
        else some (toneJudgement s.geom.regions[r] c.loc.len c.header.crc)
      | .band _ =>
        if c.slotRef = some here then
          match c.verdict with
          | .good => some .good
          | .malformed o => some (.malformed o c.header.crc)
          | .notRun => none
        else none

/-- A BAND or TONE parcel judged and filed into a slot (R31, R32). -/
def Part.fileInto (p : Part) (c : Parcel) (n : Fin 512) : Part :=
  let h := c.header
  let s := p.slots[n]
  match s.geom.entryRef? c.kind h.index with
  | none => p.badIndex h.id h.version c.kind h.index c.stream h.block (some n)
  | some ref =>
    match judgeCopy c s ref { slot := n, alloc := s.alloc } with
    | none => p.lateValidation c n
    | some j =>
      p.fileCopy n ref
        { loc := c.loc, storedCrc := h.crc, tick := c.tick, stream := c.stream, judged := j, found := .filing }

/-- A BAND or TONE parcel filed, with the in-use slot of its page version if there is one (R31). -/
def Part.fileBandToneIn (p : Part) (c : Parcel) : Option (Fin 512) → Part
  | some n => p.fileInto c n
  | none => if p.outdated c.header.id c.header.version then p else p.orphanCandidate c

/-- A BAND or TONE parcel filed (R31). -/
def Part.fileBandTone (p : Part) (c : Parcel) : Part :=
  p.fileBandToneIn c (p.versionSlot c.header.id c.header.version)

/-! ## Adoption (R42, R43) -/

/-- The adoption of an entry is in flight. -/
def Orphan.inFlight (o : Orphan) : Bool :=
  match o.binding with
  | none => false
  | some b => b.begun

/-- The ADOPTING entry next to be adopted: the nearest to the head, where no adoption is in flight (R42). -/
def nextAdoption (q : List Orphan) : Option (Orphan × Binding) :=
  if q.any Orphan.inFlight then none else q.findSome? fun o => o.binding.map fun b => (o, b)

/-- The adoption in flight. -/
def currentAdoption (q : List Orphan) : Option (Orphan × Binding) :=
  (q.find? Orphan.inFlight).bind fun o => o.binding.map fun b => (o, b)

/-- An adoption completed: the entry leaves the queue and its copy is filed, as TRAMPLED where its mark is set (R43). -/
def Part.completeAdoption (p : Part) (o : Orphan) (b : Binding) (ref : EntryRef) (j : Judgement) : Part :=
  let j := match b.mark with
    | none => j
    | some t => .trampled t none
  (p.setOrphans (p.orphans.erase o)).fileCopy b.ref.slot ref
    { loc := o.loc, storedCrc := o.storedCrc, tick := o.tick, stream := o.stream, judged := j, found := .adoption }

/-- An adoption begins with the index check; a TONE completes at once, a BAND's read-back is in flight (R43). -/
def Part.startAdoption (p : Part) (o : Orphan) (b : Binding) : Part :=
  let g := p.slots[b.ref.slot].geom
  match g.entryRef? o.kind o.index with
  | none =>
    (p.setOrphans (p.orphans.erase o)).badIndex o.id o.version o.kind o.index o.stream o.loc.headerBlock
      (some b.ref.slot)
  | some (.tone r) => p.completeAdoption o b (.tone r) (toneJudgement g.regions[r] o.loc.len o.storedCrc)
  | some (.band _) =>
    p.ownRead.setOrphans
      (p.orphans.map fun x => if x = o then { o with binding := some { b with begun := true } } else x)

/-- The last byte of a read-back has been checked (R43). -/
def Part.endAdoption (p : Part) (o : Orphan) (b : Binding) (returned : List Host.Cell) : Part :=
  let g := p.slots[b.ref.slot].geom
  match g.entryRef? o.kind o.index with
  | none => p
  | some ref =>
    let j : Judgement :=
      match spanVerdict g.width (g.lineCount o.index) (p.mem.payload returned o.loc) with
      | .malformed x => .malformed x o.storedCrc
      | .good => .good
      | .notRun => .good
    p.ownRead.completeAdoption o b ref j

/-! ## The trample monitor (R149 to R155) -/

/-- The in-use entries of a slot that are GOOD and whose extent the block meets. -/
def Slot.metEntries (s : Slot) (block : Nat) : List EntryRef :=
  if s.inUse then
    let met (e : Entry) : Bool := e.state == .good && e.loc.meets block
    (((numbered s.bands).take s.geom.bandCount).filter fun x => met x.2).map (fun x => EntryRef.band x.1)
      ++ (((numbered s.tones).take s.geom.toneCount).filter fun x => met x.2).map fun x => EntryRef.tone x.1
  else []

/-- A GOOD entry trampled (R150). -/
def Part.trampleEntry (p : Part) (n : Fin 512) (t : Trample) (ref : EntryRef) : Part :=
  p.leaveGood n ref .trampled (.trample t)
    { found := .monitor, origin := .source t.source, block := t.block, computed := none }

/-- The entries of one slot that the block meets, each tested as it stands when its turn comes. -/
def Part.trampleSlot (p : Part) (t : Trample) (n : Fin 512) : Part :=
  (p.slots[n].metEntries t.block).foldl (fun p ref =>
    if (p.slots[n].metEntries t.block).contains ref then p.trampleEntry n t ref else p) p

/-- The orphans that the block meets: WAITING ones are dropped, ADOPTING ones take the mark if they have none (R150). -/
def Part.trampleOrphans (p : Part) (t : Trample) : Part :=
  let hit (o : Orphan) : Bool := o.loc.meets t.block
  let marked := p.orphans.map fun o =>
    match o.binding with
    | none => o
    | some b => if hit o ∧ b.mark = none then { o with binding := some { b with mark := some t } } else o
  let dropped := marked.filter fun o => o.waiting && hit o
  let p := p.setOrphans (marked.filter fun o => !(o.waiting && hit o))
  dropped.foldl (fun p o => p.orphanDropped o .trampled (some t)) p

/-- The parcels in transit that the block meets take the mark if they have none (R152). HEAD parcels are not watched. -/
def Part.trampleTransit (p : Part) (t : Trample) : Part :=
  p.setTransit
    (p.transit.map fun c =>
      if c.kind ≠ .head ∧ c.loc.meets t.block ∧ c.mark = none then { c with mark := some t } else c)

/-- A forwarded write block offered to the trample monitor; its owners in the order slots, orphans, transit (log 11). -/
def Part.trampleTest (p : Part) (source : Fin 16) (block : Nat) : Part :=
  let t : Trample := { source := source.val, block := block }
  let p := (p.slotsWhere fun s => !(s.metEntries block).isEmpty).foldl (fun p n => p.trampleSlot t n) p
  (p.trampleOrphans t).trampleTransit t

end Sys2Proof.Machine
end

