-- ==== Sys2Proof/Machine/Expander.lean ====
section
/-! DEFINITION. The band expander: line cursors, opens of bands and tone regions, decoded lines and sample rows
(R54 to R67). -/

namespace Sys2Proof.Machine

/-- The slot still stands in the allocation that a reference names. -/
def Part.allocated (p : Part) (ref : SlotRef) : Bool :=
  p.slots[ref.slot].inUse && p.slots[ref.slot].alloc == ref.alloc

/-- The entry a cursor sees in the slot it is pinned to; ABSENT once that allocation has been freed. -/
def Part.entryAt (p : Part) (ref : SlotRef) (e : EntryRef) : Entry :=
  if p.allocated ref then p.slots[ref.slot].entry e else {}

/-- What an open captures (R55). -/
def Entry.capture (e : Entry) : Capture := { loc := e.loc, crc := e.storedCrc }

/-- The cursors of a plate at the start of a pass: one for each resolved placement, nothing open (R58, R67). An
unresolved placement of a forced plate has none: 3.3 and R128 speak of a cursor for each placement, R58 gives it the
slot the placement is pinned to, and an unresolved placement asks for nothing (R137). DESIGN CHOICE, safe: log 38. -/
def Part.newCursors (p : Part) (n : Fin 64) : List Cursor :=
  p.plates[n].copy.numberedPlacements.filterMap fun x =>
    let r := p.plates[n].res[x.1]
    if r.pinned then
      some { plate := n, placement := x.1, ref := { slot := r.slot, alloc := r.alloc }, version := r.version
             geom := p.slots[r.slot].geom }
    else none

/-! ## The part of a block in one placement (R137, R139) -/

/-- The part of a frame that a block of raster line `y`, columns from `x`, meets: page line and page pixel range. -/
def Placement.pageRange (q : Placement) (x y : Nat) : Option (Nat × Nat × Nat) :=
  let a := max x q.x0
  let b := min (x + 512) (q.x0 + q.frameW)
  if q.y0 ≤ y ∧ y < q.y0 + q.frameH ∧ a < b then
    if q.turned then some (q.frameH - 1 - (y - q.y0), q.frameW - (b - q.x0), q.frameW - (a - q.x0))
    else some (y - q.y0, a - q.x0, b - q.x0)
  else none

/-- The band of a page line (R54). -/
def Geometry.bandOf (g : Geometry) (line : Nat) : Fin 64 := ⟨line / g.bandHeight % 64, Nat.mod_lt _ (by decide)⟩

/-- A region is needed: its lines hold the page line and its pixels meet the range (R63). -/
def Descriptor.needed (d : Descriptor) (line low high : Nat) : Bool :=
  d.y ≤ line && line < d.y + d.h && decide (max low d.x < min high (d.x + d.w))

/-- The regions a block needs of a slot, in ascending index (R63). -/
def Geometry.neededRegions (g : Geometry) (line low high : Nat) : List (Fin 16) :=
  (List.finRange 16).filter fun r => decide (r.val < g.toneCount) && g.regions[r].needed line low high

/-- What a block asks of a placement, before any answer. -/
def Cursor.request (c : Cursor) (range : Nat × Nat × Nat) : PrepItem :=
  { placement := c.placement
    line := range.1
    low := range.2.1
    high := range.2.2
    band := c.geom.bandOf range.1
    spans := .waiting
    regions := (c.geom.neededRegions range.1 range.2.1 range.2.2).map fun r => { region := r, answer := .waiting } }

/-! ## Answers from open bands and regions -/

/-- A line of the open band decoded, and its spans clipped to the range; no spans under the broken mark
(R59, R60, R62). -/
def Cursor.decode (c : Cursor) (mem : Memory) (cells : List Host.Cell) (b : OpenBand) (it : PrepItem) :
    OpenBand × Answer (List (Nat × Nat)) :=
  let b' := b.seek c.geom.width (c.geom.lineCount b.band) (mem.payload cells b.cap.loc)
    (it.line - b.band.val * c.geom.bandHeight)
  (b', if b'.broken then .broken else .data (clipSpans b'.spans it.low it.high))

/-- The samples of a region row over the range, read at payload offsets of the captured copy (R64). -/
def Descriptor.samples (d : Descriptor) (mem : Memory) (cells : List Host.Cell) (loc : Location)
    (line low high : Nat) : Samples :=
  let first := (max low d.x - d.x) / d.scale
  let last := (min high (d.x + d.w) - 1 - d.x) / d.scale
  { firstCol := first
    bytes := (List.range' first (last + 1 - first)).map fun col =>
      mem.returned cells (loc.byteAddr ((line - d.y) / d.scale * d.cols + col)) }

/-- A region is closed by a request beyond it in the direction of the pass (R65). -/
def Descriptor.passed (d : Descriptor) (turned : Bool) (line : Nat) : Bool :=
  if turned then decide (line < d.y) else decide (d.y + d.h ≤ line)

/-- Index of the entry an open is of, when it is a tone region. -/
def Opening.region? (o : Opening) : Option (Fin 16) :=
  match o.entry with
  | .band _ => none
  | .tone r => some r

/-- The regions a request leaves open (R65). -/
def Cursor.closePassed (c : Cursor) (turned : Bool) (line : Nat) : Cursor :=
  { c with
    regions := c.regions.filter fun o =>
      match o.region? with
      | none => false
      | some r => !c.geom.regions[r].passed turned line }

/-! ## Requests (R54, R63) -/

/-- The band part of a request (R54): decode from the open band; else close it and open the band if it is GOOD, or
answer with the state found. -/
def Part.requestBand (p : Part) (cells : List Host.Cell) (c : Cursor) (it : PrepItem) : Cursor × PrepItem :=
  let e := p.entryAt c.ref (.band it.band)
  let reopen : Cursor × PrepItem :=
    if e.state = .good then
      ({ c with band := none, opening := some { entry := .band it.band, cap := e.capture } },
        { it with spans := .waiting })
    else ({ c with band := none }, { it with spans := .found e.state })
  match c.band with
  | none => reopen
  | some b =>
    if b.band = it.band ∧ b.interrupted = false then
      let d := c.decode p.mem cells b it
      ({ c with band := some d.1 }, { it with spans := d.2 })
    else reopen

/-- One needed region of a request (R63, R64). -/
def Part.requestRegion (p : Part) (cells : List Host.Cell) (c : Cursor) (it : PrepItem) (r : Fin 16) :
    Cursor × RegionNeed :=
  let open_ := c.regions.find? fun o => o.entry == .tone r && !o.interrupted
  match open_ with
  | some o =>
    (c, { region := r
          answer := .data (c.geom.regions[r].samples p.mem cells o.cap.loc it.line it.low it.high) })
  | none =>
    let c := { c with regions := c.regions.filter fun o => o.entry != .tone r }
    let e := p.entryAt c.ref (.tone r)
    if e.state = .good then
      ({ c with regionOpenings := c.regionOpenings ++ [{ entry := .tone r, cap := e.capture }] },
        { region := r, answer := .waiting })
    else (c, { region := r, answer := .found e.state })

/-- The needed regions of a request, in ascending index. -/
def Part.requestRegions (p : Part) (cells : List Host.Cell) (it : PrepItem) :
    Cursor → List RegionNeed → Cursor × List RegionNeed
  | c, [] => (c, [])
  | c, need :: rest =>
    let x := p.requestRegion cells c it need.region
    let y := p.requestRegions cells it x.1 rest
    (y.1, x.2 :: y.2)

/-- A whole request of one placement (R137). -/
def Part.request (p : Part) (cells : List Host.Cell) (turned : Bool) (c : Cursor) (it : PrepItem) :
    Cursor × PrepItem :=
  let x := p.requestBand cells (c.closePassed turned it.line) it
  let y := p.requestRegions cells it x.1 it.regions
  (y.1, { x.2 with regions := y.2 })

/-- Preparation of the block at column pixel `x` of raster line `y` (R137): the requests of its resolved placements in
placement order. -/
def Part.prepare (p : Part) (cells : List Host.Cell) (copy : PlateRecord) (x y : Nat) :
    List Cursor → List Cursor × List PrepItem
  | [] => ([], [])
  | c :: rest =>
    let others := p.prepare cells copy x y rest
    match copy.placements[c.placement.val]? with
    | none => (c :: others.1, others.2)
    | some q =>
      match q.pageRange x y with
      | none => (c :: others.1, others.2)
      | some range =>
        let d := p.request cells q.turned c (c.request range)
        (d.1 :: others.1, d.2 :: others.2)

/-- A region's part of a request has the expander read memory: an open has begun, or samples were read; a region found
in another state than GOOD is not read (R63, R64). -/
def RegionNeed.reads (x : RegionNeed) : Bool :=
  match x.answer with
  | .waiting => true
  | .data _ => true
  | .broken => false
  | .found _ => false

/-- A request, as the cursor `c` before it was answered, has the expander read memory: an open has begun (R55), a line
is decoded by reading codes (R59), or a region is read. A band found in another state than GOOD (R54), the line held
and a line under the broken mark (R62) are answered with nothing read. -/
def Cursor.reads (c : Cursor) (it : PrepItem) : Bool :=
  let decoded := c.band.any fun b => b.reads (it.line - b.band.val * c.geom.bandHeight)
  (match it.spans with
    | .waiting => true
    | .data _ => decoded
    | .broken => decoded
    | .found _ => false) || it.regions.any RegionNeed.reads

/-- The requests of a block have the expander read memory; `cursors` are those before the requests (R137). -/
def requestsRead (cursors : List Cursor) (items : List PrepItem) : Bool :=
  items.any fun it => (cursors.find? fun c => c.placement == it.placement).any fun c => c.reads it

/-! ## The completion of an open (R55, R56, R63) -/

/-- What an open has come to. -/
inductive OpenOutcome
  | opened
  | failed (computed : Word)
  | again (cap : Capture)
  | found (state : EntryState)
  deriving DecidableEq, Repr

/-- The outcome of an open whose last byte has been taken (R55, R56). An open of an entry whose allocation has been
freed since finds it ABSENT. -/
def Part.openOutcome (p : Part) (c : Cursor) (o : Opening) (cells : List Host.Cell) : OpenOutcome :=
  let e := p.entryAt c.ref o.entry
  let computed := crc32 (p.mem.payload cells o.cap.loc)
  if o.interrupted then (if e.state = .good then .again e.capture else .found e.state)
  else if computed = o.cap.crc then .opened
  else if e.state = .good then .failed computed
  else .found e.state

/-- The answer of a region in a request replaced. -/
def PrepItem.answerRegion (it : PrepItem) (r : Fin 16) (a : Answer Samples) : PrepItem :=
  { it with regions := it.regions.map fun x => if x.region = r then { x with answer := a } else x }

/-- A band's open completed, but for REREAD_BAD. -/
def Cursor.endBandOpen (c : Cursor) (mem : Memory) (cells : List Host.Cell) (o : Opening) (it : PrepItem) :
    OpenOutcome → Cursor × PrepItem
  | .opened =>
    let b : OpenBand := { band := it.band, cap := o.cap }
    let d := c.decode mem cells b it
    ({ c with opening := none, band := some d.1 }, { it with spans := d.2 })
  | .failed _ => ({ c with opening := none }, { it with spans := .found .rereadBad })
  | .again cap => ({ c with opening := some { entry := o.entry, cap := cap } }, it)
  | .found st => ({ c with opening := none }, { it with spans := .found st })

/-- A region's open completed, but for REREAD_BAD. -/
def Cursor.endRegionOpen (c : Cursor) (mem : Memory) (cells : List Host.Cell) (o : Opening) (r : Fin 16)
    (it : PrepItem) (x : OpenOutcome) : Cursor × PrepItem :=
  let c := { c with regionOpenings := c.regionOpenings.filter fun y => y.entry != .tone r }
  match x with
  | .opened =>
    ({ c with regions := c.regions ++ [o] },
      it.answerRegion r (.data (c.geom.regions[r].samples mem cells o.cap.loc it.line it.low it.high)))
  | .failed _ => (c, it.answerRegion r (.found .rereadBad))
  | .again cap => ({ c with regionOpenings := c.regionOpenings ++ [{ entry := o.entry, cap := cap }] }, it)
  | .found st => (c, it.answerRegion r (.found st))

/-- The open of a cursor that a completion names. -/
def Cursor.findOpening (c : Cursor) : OpenTarget → Option Opening
  | .band => c.opening
  | .tone r => c.regionOpenings.find? fun o => o.entry == .tone r

/-- A completion taken by a cursor and its request. -/
def Cursor.endOpen (c : Cursor) (mem : Memory) (cells : List Host.Cell) (what : OpenTarget) (o : Opening)
    (it : PrepItem) (x : OpenOutcome) : Cursor × PrepItem :=
  match what with
  | .band => c.endBandOpen mem cells o it x
  | .tone r => c.endRegionOpen mem cells o r it x

/-- The block in hand with one request replaced. -/
def InHand.setItem (h : InHand) (it : PrepItem) : InHand :=
  { h with items := h.items.map fun x => if x.placement = it.placement then it else x }

/-- The cursors with one replaced. -/
def setCursor (cs : List Cursor) (c : Cursor) : List Cursor :=
  cs.map fun x => if x.placement = c.placement then c else x

/-- An open of a channel's cursor completes (R55, R56, R63). A failed open gives its entry to the directory as
REREAD_BAD (R36) once the cursor no longer holds the open. The CRC re-read and the decode or sample read of the request
that the open answers are given the same returned bytes, one list for both: memory that changes between the two reads
is not shown. DESIGN CHOICE, unsafe: log 36. -/
def Part.completeOpen (p : Part) (k : Fin 2) (c : Cursor) (h : InHand) (it : PrepItem) (what : OpenTarget)
    (o : Opening) (cells : List Host.Cell) : Part :=
  let x := p.openOutcome c o cells
  let d := c.endOpen p.mem cells what o it x
  let ch := p.channels[k]
  let q := p.ownRead.setChannel k { ch with inHand := some (h.setItem d.2), cursors := setCursor ch.cursors d.1 }
  match x with
  | .failed computed =>
    let e := p.entryAt c.ref o.entry
    q.leaveGood c.ref.slot o.entry .rereadBad (.computed computed)
      { found := .opened, channel := k.val, origin := .stream e.stream, block := e.loc.blockAddr 0
        computed := some computed }
  | _ => q

end Sys2Proof.Machine
end

