-- ==== Sys2Proof/Machine/Screen.lean ====
section
/-! DEFINITION. The screen unit: the transfer arithmetic (R79 to R82), tile areas (R86, R87, R91), the tile read (R92),
the threshold lookup and the dot (R97, R98). -/

namespace Sys2Proof.Machine

/-! ## The transfer (R80 to R82) -/

/-- Stage 1, the curve (R80): floor division, halves rounded up. -/
def curveStage (points : Vector Nat 17) (v : Fin 256) : Int :=
  let i : Fin 16 := ⟨v.val / 16, by omega⟩
  let lo : Int := points[i.val]
  let hi : Int := points[i.val + 1]
  lo + ((hi - lo) * (v.val % 16 : Nat) + 8) / 16

/-- Stage 2, the trim (R81). -/
def trimStage (t : Int) (trim : Nat) : Int := (t * trim + 128) / 256

/-- Stage 3, the anchors and the clamps (R82). -/
def clampStage (v : Fin 256) (u : Int) (minDot maxDot : Nat) : Nat :=
  if v.val = 0 then 0
  else if v.val = 255 then 4095
  else min (max u.toNat minDot) maxDot

/-- The transfer value of a sample. -/
def transferValue (points : Vector Nat 17) (trim minDot maxDot : Nat) (v : Fin 256) : Nat :=
  clampStage v (trimStage (curveStage points v) trim) minDot maxDot

/-- The transfer table of a set (R79). -/
def ScreenSet.buildTable (s : ScreenSet) : List Nat :=
  (List.finRange 256).map fun v => transferValue s.points s.trim s.minDot s.maxDot v

/-! ## Areas (R87, R91) -/

/-- The area count of a tile of `n` entries. -/
def areaCount (n : Nat) : Nat := if n ≤ 4096 then 1 else if n ≤ 8192 then 2 else 4

/-- The start area is allowed for an area count. -/
def startAllowed (start count : Nat) : Bool := start % count == 0

/-- The tile needs an area. -/
def needsArea (start count a : Nat) : Bool := start ≤ a && a < start + count

/-- The owners after an accepted LOAD of set `n` (R91). -/
def takeAreas (owners : Vector (Option (Fin 8)) 8) (n : Fin 8) (start count : Nat) : Vector (Option (Fin 8)) 8 :=
  Vector.ofFn fun a : Fin 8 =>
    if needsArea start count a.val then some n else if owners[a] = some n then none else owners[a]

/-- The owners after an accepted UNLOAD of set `n` (R96). -/
def releaseAreas (owners : Vector (Option (Fin 8)) 8) (n : Fin 8) : Vector (Option (Fin 8)) 8 :=
  owners.map fun o => if o = some n then none else o

/-- The lowest area a tile needs that another set owns, and its owner (R90, check 9). -/
def areaTaken (owners : Vector (Option (Fin 8)) 8) (n : Fin 8) (start count : Nat) : Option (Fin 8 × Fin 8) :=
  (List.finRange 8).findSome? fun a =>
    match owners[a] with
    | none => none
    | some m => if needsArea start count a.val ∧ m ≠ n then some (a, m) else none

/-! ## The LOAD's checks (R77, R90) -/

/-- The detail of the first curve check that fails (R77). -/
def curveFault (f : SetFields) : Option Nat :=
  match f.points.toList.findIdx? fun x => decide (4095 < x) with
  | some k => some k
  | none =>
    if 4095 < f.minDot then some 17
    else if 4095 < f.maxDot then some 18
    else if f.maxDot < f.minDot then some 19
    else none

/-- The detail of the first BAD_PARAM check that fails: checks 2 to 8 (R90). -/
def setFault (f : SetFields) : Option Nat :=
  match curveFault f with
  | some d => some d
  | none =>
    if f.w < 8 ∨ 128 < f.w then some 20
    else if f.h < 8 ∨ 128 < f.h then some 21
    else if f.w ≤ f.s then some 22
    else if 7 < f.start then some 23
    else if startAllowed f.start (areaCount (f.w * f.h)) = false then some 24
    else if f.source % 64 ≠ 0 ∨ Config.addressSpace < f.source + 2 * (f.w * f.h) then some 25
    else none

/-- The result of a refused LOAD and its detail; none where the LOAD is accepted (R90). -/
def loadRefusal (s : ScreenSet) (owners : Vector (Option (Fin 8)) 8) (n : Fin 8) (f : SetFields) :
    Option (ResultCode × Nat) :=
  if s.use ≠ 0 then some (.inUse, s.use)
  else
    match setFault f with
    | some d => some (.badParam, d)
    | none =>
      (areaTaken owners n f.start (areaCount (f.w * f.h))).map fun x =>
        (.areaTaken, packBytes x.1.val x.2.val)

/-- The set as it enters LOADING (R78, R91). -/
def ScreenSet.loading (s : ScreenSet) (f : SetFields) : ScreenSet :=
  { state := .loading
    w := f.w
    h := f.h
    s := f.s
    start := f.start
    count := areaCount (f.w * f.h)
    points := f.points
    trim := min f.trim 256
    minDot := f.minDot
    maxDot := f.maxDot
    table := []
    trimClamped := decide (256 < f.trim)
    decreasing := decreasingPoints f.points.toList
    clamps := 0
    use := s.use
    source := f.source }

/-! ## The tile read (R92) -/

/-- A threshold as it is stored. -/
def clampThreshold (v : Nat) : Nat := if v = 0 then 1 else if 4095 < v then 4095 else v

/-- The values a LOAD reads, in entry order. -/
def tileValues (mem : Memory) (cells : List Host.Cell) (source n : Nat) : List Nat :=
  (List.range n).map fun e =>
    leNat [mem.returned cells (source + 2 * e), mem.returned cells (source + 2 * e + 1)]

/-- The set as its LOAD completes (R93). -/
def ScreenSet.loaded (s : ScreenSet) (values : List Nat) : ScreenSet :=
  { s with
    state := .loaded
    table := s.buildTable
    clamps := values.countP fun v => clampThreshold v != v }

/-- Tile memory with the tile stored (R92). -/
def storeTile (t : TileMemory) (s : ScreenSet) (values : List Nat) : TileMemory :=
  t.store (Config.areaEntries * s.start) (values.map fun v => BitVec.ofNat 12 (clampThreshold v))

/-! ## The dot (R83, R97, R98) -/

/-- The tile memory entry for a plate pixel (R97). -/
def ScreenSet.tileEntry (s : ScreenSet) (x y : Nat) : Nat :=
  Config.areaEntries * s.start + (y % s.h * s.w + (x + y / s.h * s.s) % s.w)

/-- The dot of a screened pixel: ink when u ≥ T (R98). -/
def ScreenSet.dot (s : ScreenSet) (t : TileMemory) (v x y : Nat) : Bool :=
  decide ((t.read (s.tileEntry x y)).toNat ≤ s.table.getD v 0)

end Sys2Proof.Machine
end

