-- ==== Sys2Proof/Machine/Composer.lean ====
section
/-! DEFINITION. The raster composers (chapter 7): reads by channel state, the pass, the composition of a block from its
snapshot, its accounting, the plate's end. -/

namespace Sys2Proof.Machine

/-! ## The raster (R125) -/

/-- Bytes per raster line. -/
def PlateRecord.stride (r : PlateRecord) : Nat := r.width / 8

/-- Bytes of the raster. -/
def PlateRecord.rasterBytes (r : PlateRecord) : Nat := r.height * r.stride

/-- Raster line of an offset. -/
def PlateRecord.lineAt (r : PlateRecord) (o : Nat) : Nat := o / r.stride

/-- Block column of an offset. -/
def PlateRecord.columnAt (r : PlateRecord) (o : Nat) : Nat := o % r.stride / 64

/-- A block of zeros. -/
def zeroBlock : List Byte := zeros 64

/-! ## The start and the restart of a pass (R128, R130) -/

/-- The pass state set up. -/
def Channel.startPass (c : Channel) : Channel :=
  { c with
    nextOffset := 0
    order := true
    beyondZero := false
    checksum := 0xFFFFFFFF
    markRaised := false
    damageRaised := false }

/-- A change of a plate's summary. -/
def Part.changeSummary (p : Part) (n : Fin 64) (f : Summary → Summary) : Part :=
  p.changePlate n fun x => { x with summary := f x.summary }

/-- PLATE_STARTED's fields from byte 24 (R207). -/
def Plate.startedTail (x : Plate) : List Byte :=
  x.res.toList.flatMap fun r =>
    leBytes 2 r.pinned.toNat ++ leBytes 2 (if r.pinned then r.slot.val else 0)
      ++ leBytes 2 (if r.pinned then r.version else 0)

/-- The head plate of a PRIMED channel starts (R114, R128). -/
def Part.startPlate (p : Part) (k : Fin 2) (n : Fin 64) : Part :=
  let p := p.changePlate n fun x => { x with state := .exposing }
  let p := p.changeChannel k fun c => { c.startPass with state := .exposing, pass := 0 }
  let p := p.setChannel k { p.channels[k] with cursors := p.newCursors n }
  let p := p.changePlate n fun x =>
    { x with
      summary := { x.summary with startTick := p.tick, exposedForced := x.forced, repinsAtStart := x.repins } }
  (p.plateStatus n).raise .plateStarted
    (.plate { p.channelForm n with forced := p.plates[n].forced, tail := p.plates[n].startedTail })

/-- A restart of the pass (R130). -/
def Part.restartPass (p : Part) (k : Fin 2) (n : Fin 64) : Part :=
  let last := p.channels[k].nextOffset - 64
  let p := p.setChannel k
    { p.channels[k].startPass with pass := satInc Config.max16 p.channels[k].pass, cursors := p.newCursors n }
  let p := (p.changeSummary n fun s => { s with restarts := satInc Config.max16 s.restarts }).plateStatus n
  p.raise .plateRestarted
    (.plate { p.channelForm n with
      pass := p.channels[k].pass
      tail := leBytes 4 last ++ leBytes 2 (p.plates[n].copy.lineAt last) })

/-! ## Reads (R126 to R130, R136) -/

/-- A read in IDLE (R127). -/
def Part.idleRead (p : Part) (k : Fin 2) (offset : Nat) (source : Fin 16) : Part :=
  let c := p.channels[k]
  let p := p.setChannel k { c with idleReads := satInc Config.max32 c.idleReads, idlePending := false }
  if c.idlePending then
    (p.headerWrite (.channel k)).raise .channelIdleRead
      (.plate { plate := 0xFF, channel := k.val, tail := leBytes 4 offset ++ leBytes 1 source.val })
  else p

/-- The block taken in hand and its preparation begun (R137). -/
def Part.takeInHand (p : Part) (k : Fin 2) (n : Fin 64) (offset : Nat) (cells : List Host.Cell) : Part :=
  let copy := p.plates[n].copy
  let x := p.prepare cells copy (512 * copy.columnAt offset) (copy.lineAt offset) p.channels[k].cursors
  (if requestsRead p.channels[k].cursors x.2 then p.ownRead else p).setChannel k
    { p.channels[k] with
      cursors := x.1
      inHand := some { offset := offset, plate := n, copy := copy, items := x.2 } }

/-- A repeated first block (R129, case 3): the checksum and the order begin again. -/
def Channel.repeatFirst (c : Channel) : Channel := { c with checksum := 0xFFFFFFFF, order := true, nextOffset := 0 }

/-- A read in EXPOSING, by the first case of R129; the answer is none where a block is taken in hand. -/
def Part.exposingRead (p : Part) (k : Fin 2) (n : Fin 64) (offset : Nat) (cells : List Host.Cell) :
    Part × Option (List Byte) :=
  let c := p.channels[k]
  if p.plates[n].copy.rasterBytes ≤ offset then
    (p.changeSummary n fun s => { s with overruns := satInc Config.max32 s.overruns }, some zeroBlock)
  else if offset = 0 ∧ c.beyondZero then ((p.restartPass k n).takeInHand k n offset cells, none)
  else if offset = 0 ∧ c.nextOffset ≠ 0 then ((p.setChannel k c.repeatFirst).takeInHand k n offset cells, none)
  else (p.takeInHand k n offset cells, none)

/-- The end of the draining (R136). -/
def Channel.endDraining (c : Channel) : Channel :=
  match c.queue with
  | [] => { c with state := .idle, idlePending := true }
  | _ :: _ => { c with state := .primed }

/-- A read in any state but DRAINING. -/
def Part.readUndrained (p : Part) (k : Fin 2) (offset : Nat) (source : Fin 16) (cells : List Host.Cell) :
    Part × Option (List Byte) :=
  let c := p.channels[k]
  match c.state, c.queue with
  | .primed, n :: _ => (p.startPlate k n).exposingRead k n offset cells
  | .exposing, n :: _ => p.exposingRead k n offset cells
  | _, _ => (p.idleRead k offset source, some zeroBlock)

/-- A plate-window read block taken by the composer of a channel (R126). -/
def Part.windowRead (p : Part) (k : Fin 2) (offset : Nat) (source : Fin 16) (cells : List Host.Cell) :
    Part × Option (List Byte) :=
  let c := p.channels[k]
  if c.state = .draining then
    if offset = 0 then (p.changeChannel k Channel.endDraining).readUndrained k offset source cells
    else (p.setChannel k { c with drainReads := satInc Config.max32 c.drainReads }, some zeroBlock)
  else p.readUndrained k offset source cells

/-! ## Composition (R138 to R142) -/

/-- The hatch pattern (R157). -/
def hatch (x y : Nat) : Bool := decide ((x + y) % 32 < 4)

/-- The cause of a hatched pixel (R143): an unresolved placement, or an entry with its slot, version and snapshot
state. -/
inductive HatchCause
  | unresolved (placement : Fin 4)
  | entry (placement : Fin 4) (slot : Fin 512) (version : Nat) (ref : EntryRef) (state : EntryState)
  deriving DecidableEq, Repr

/-- A term of a pixel: what it inks by itself, or the hatch with its cause. -/
inductive Term
  | ink (on : Bool)
  | hatched (cause : HatchCause)
  deriving DecidableEq, Repr

/-- A pixel of a block: inked or not, and the cause of its hatch if it took one. -/
structure Pixel where
  on    : Bool
  cause : Option HatchCause
  deriving DecidableEq, Repr

/-- The snapshot of one placement: the states its entries have now (R138). -/
def Part.snapshotOf (p : Part) (c : Cursor) (it : PrepItem) : PlacementSnapshot :=
  { placement := it.placement
    ref := c.ref
    band := (p.entryAt c.ref (.band it.band)).state
    regions := it.regions.map fun r => (r.region, (p.entryAt c.ref (.tone r.region)).state) }

/-- The snapshot of a block: one for each resolved placement it meets (R138). -/
def Part.snapshot (p : Part) (cursors : List Cursor) (h : InHand) : List PlacementSnapshot :=
  h.items.filterMap fun it =>
    (cursors.find? fun c => c.placement == it.placement).map fun c => p.snapshotOf c it

/-- A snapshot taken after a CANCEL: for a slot freed since, the states held at the CANCEL stand. DESIGN CHOICE, unsafe:
log 12. -/
def Part.heldOr (p : Part) (held : List PlacementSnapshot) (s : PlacementSnapshot) : PlacementSnapshot :=
  if p.allocated s.ref then s else (held.find? fun x => x.placement == s.placement).getD s

/-- Composition of the block in hand begins with its snapshot (R138), after the outcome of every open of the block (R66).
The snapshot that a block held at a CANCEL of its plate stands. -/
def Part.beginComposition (p : Part) (k : Fin 2) (h : InHand) : InHand :=
  let now := p.snapshot p.channels[k].cursors h
  { h with
    stage := .composition
    snapshot :=
      if h.live then now
      else
        match h.stage with
        | .composition => h.snapshot
        | .preparation => now.map (p.heldOr h.held) }

/-- The state that governs an entry of the block: the one preparation found where it answered without data, else the
snapshot's (R138). -/
def Answer.governs {α : Type} (a : Answer α) (st : EntryState) : EntryState :=
  match a with
  | .found x => x
  | .waiting => st
  | .data _ => st
  | .broken => st

/-- What composition has for one resolved placement: its cursor, its request and the states that govern its entries. -/
structure Source where
  cursor  : Cursor
  item    : PrepItem
  band    : EntryState
  regions : List (RegionNeed × EntryState)
  deriving DecidableEq, Repr

/-- The state of a needed region in a snapshot. -/
def PlacementSnapshot.region (s : PlacementSnapshot) (r : Fin 16) : EntryState := (s.regions.lookup r).getD .absent

/-- One placement's snapshot joined to what preparation has got (R138). -/
def PlacementSnapshot.source (s : PlacementSnapshot) (c : Cursor) (it : PrepItem) : Source :=
  { cursor := c
    item := it
    band := it.spans.governs s.band
    regions := it.regions.map fun r => (r, r.answer.governs (s.region r.region)) }

/-- What the block in hand is composed from: its snapshot, with the cursors and the requests it holds (R135, R138). -/
def InHand.sources (h : InHand) (cursors : List Cursor) : List Source :=
  h.snapshot.filterMap fun s =>
    match cursors.find? (fun c => c.placement == s.placement), h.items.find? (fun it => it.placement == s.placement) with
    | some c, some it => some (s.source c it)
    | _, _ => none

/-- The cause that an entry of a source is. -/
def Source.cause (s : Source) (ref : EntryRef) (state : EntryState) : HatchCause :=
  .entry s.cursor.placement s.cursor.ref.slot s.cursor.version ref state

/-- The line-art term at page column `px` (R140). -/
def Source.lineArt (s : Source) (px : Nat) : Term :=
  match s.band, s.item.spans with
  | .good, .data spans => .ink (spans.any fun t => decide (t.1 ≤ px) && decide (px < t.2))
  | st, _ => .hatched (s.cause (.band s.item.band) st)

/-- The winning region of a page pixel: the candidate with the highest index (R73). -/
def Source.winner (s : Source) (px : Nat) : Option (RegionNeed × EntryState) :=
  s.regions.reverse.find? fun r => s.cursor.geom.regions[r.1.region].contains px s.item.line

/-- The sample of a fetched row that holds a page column (R64, R74). -/
def Samples.at_ (a : Samples) (d : Descriptor) (px : Nat) : Nat :=
  (a.bytes.getD ((px - d.x) / d.scale - a.firstCol) 0).toNat

/-- The dot term of a page pixel at plate pixel (x, y) (R74, R141). -/
def Source.dotTerm (s : Source) (set : ScreenSet) (t : TileMemory) (px x y : Nat) : Term :=
  match s.winner px with
  | none => .ink false
  | some (r, st) =>
    match st, r.answer with
    | .good, .data a => .ink (set.dot t (a.at_ s.cursor.geom.regions[r.region] px) x y)
    | _, _ => .hatched (s.cause (.tone r.region) st)

/-- What a term inks. -/
def Term.inks (x y : Nat) : Term → Bool
  | .ink on => on
  | .hatched _ => hatch x y

/-- The cause of a hatched term. -/
def Term.cause : Term → Option HatchCause
  | .ink _ => none
  | .hatched c => some c

/-- Page column of a plate column inside a placement (R139). -/
def Placement.pageColumn (q : Placement) (x : Nat) : Nat :=
  if q.turned then q.frameW - 1 - (x - q.x0) else x - q.x0

/-- A plate pixel is inside a placement (R139). -/
def Placement.holds (q : Placement) (x y : Nat) : Bool :=
  q.x0 ≤ x && x < q.x0 + q.frameW && q.y0 ≤ y && y < q.y0 + q.frameH

/-- The value of a plate pixel: its line-art term OR its dot term; the hatch in an unresolved placement; paper outside
every frame (R142). -/
def pixel (copy : PlateRecord) (sources : List Source) (set : ScreenSet) (t : TileMemory) (x y : Nat) : Pixel :=
  match copy.numberedPlacements.find? fun q => q.2.holds x y with
  | none => { on := false, cause := none }
  | some (k, q) =>
    match sources.find? fun s => s.cursor.placement == k with
    | none => { on := hatch x y, cause := some (.unresolved k) }
    | some s =>
      let px := q.pageColumn x
      let line := s.lineArt px
      let dot := s.dotTerm set t px x y
      { on := line.inks x y || dot.inks x y, cause := line.cause <|> dot.cause }

/-- Pixels packed eight to a byte, the first in the most significant bit, ink as 1 (R142). -/
def packPixels : List Bool → List Byte
  | a :: b :: c :: d :: e :: f :: g :: h :: rest =>
    BitVec.ofNat 8 (128 * a.toNat + 64 * b.toNat + 32 * c.toNat + 16 * d.toNat + 8 * e.toNat + 4 * f.toNat
      + 2 * g.toNat + h.toNat) :: packPixels rest
  | _ => []

/-- A block composed. -/
structure Composed where
  bytes : List Byte
  cause : Option HatchCause   -- of the leftmost hatched pixel
  deriving DecidableEq, Repr

/-- The block in hand composed from its snapshot (R138 to R142). -/
def Part.compose (p : Part) (k : Fin 2) (h : InHand) (t : TileMemory) : Composed :=
  let sources := (p.beginComposition k h).sources p.channels[k].cursors
  let set := p.sets[h.copy.screenSet]
  let y := h.copy.lineAt h.offset
  let pixels := (List.range 512).map fun i =>
    pixel h.copy sources set t (512 * h.copy.columnAt h.offset + i) y
  { bytes := packPixels (pixels.map fun x => x.on), cause := pixels.findSome? fun x => x.cause }

/-- Preparation has ended: every request has been answered (R137). -/
def InHand.prepared (h : InHand) : Bool :=
  h.items.all fun it => it.spans != .waiting && it.regions.all fun r => r.answer != .waiting

/-- The block in hand as a CANCEL of its plate leaves it (R135, R138): no longer live. One whose preparation has ended
keeps the snapshot of this moment. One still in preparation stays so, and takes its snapshot once its opens have their
outcomes (R66); the states of now are held for the slots that may be freed before (log 12). -/
def Part.cancelledBlock (p : Part) (k : Fin 2) (h : InHand) : InHand :=
  let now := p.snapshot p.channels[k].cursors h
  if h.prepared then { h with live := false, stage := .composition, snapshot := now }
  else { h with live := false, held := now }

/-! ## Accounting (R131 to R134, R143) -/

/-- PLATE_DAMAGED_OUTPUT's fields from byte 24 (R143, R207). -/
def HatchCause.tail (line column : Nat) : HatchCause → List Byte
  | .unresolved k => leBytes 2 line ++ leBytes 1 column ++ leBytes 1 k.val ++ leBytes 1 1 ++ zeros 7
  | .entry k slot version ref st =>
    leBytes 2 line ++ leBytes 1 column ++ leBytes 1 k.val ++ leBytes 1 0 ++ leBytes 1 ref.kindCode
      ++ leBytes 1 ref.index ++ leBytes 1 st.code ++ leBytes 2 slot.val ++ leBytes 2 version

/-- Steps 1 to 3 of the accounting on the channel (R131). -/
def Channel.account (c : Channel) (o : Nat) (bytes : List Byte) : Channel :=
  { c with
    order := c.order && o == c.nextOffset
    nextOffset := o + 64
    beyondZero := c.beyondZero || o != 0
    checksum := crcRun c.checksum bytes }

/-- Step 4, the counts, and the count of hatched blocks (R131, R143). -/
def Summary.account (s : Summary) (lastColumn hatched : Bool) : Summary :=
  { s with
    blocks := satInc Config.max32 s.blocks
    lines := if lastColumn then satInc Config.max32 s.lines else s.lines
    hatched := if hatched then satInc Config.max32 s.hatched else s.hatched }

/-- The first hatched block of a pass (R143). -/
def Part.reportHatch (p : Part) (k : Fin 2) (n : Fin 64) (o : Nat) (cause : Option HatchCause) : Part :=
  match cause with
  | none => p
  | some x =>
    if p.channels[k].damageRaised then p
    else
      let copy := p.plates[n].copy
      let p := (p.setChannel k { p.channels[k] with damageRaised := true }).plateStatus n
      p.raise .plateDamagedOutput
        (.plate { p.channelForm n with
          pass := p.channels[k].pass
          tail := x.tail (copy.lineAt o) (copy.columnAt o) })

/-- The mark line (R133). -/
def Part.reportMark (p : Part) (k : Fin 2) (n : Fin 64) (o : Nat) : Part :=
  let copy := p.plates[n].copy
  if copy.mark ≠ 0 ∧ copy.mark ≤ copy.lineAt o ∧ p.channels[k].markRaised = false then
    let p := (p.setChannel k { p.channels[k] with markRaised := true }).plateStatus n
    p.raise .plateMark
      (.plate { p.channelForm n with pass := p.channels[k].pass, tail := leBytes 2 (copy.lineAt o) })
  else p

/-- The end of CLOSING of the plate windows bound to a channel (R175): INACTIVE, the status record, DONE. -/
def Part.endClosing (p : Part) (k : Fin 2) : Part :=
  forEach 16 (fun (p : Part) n =>
    let w := p.windows[n]
    if w.state = .closing ∧ w.cls = some .plate ∧ w.binding = k.val then
      ((p.setWindow n { w with state := .inactive }).statusWrite (.window n)).finish (.window n) .done
        WindowState.closing.code
    else p) p

/-- The cursors of a channel discarded (R67). -/
def Part.dropCursors (p : Part) (k : Fin 2) : Part := p.setChannel k { p.channels[k] with cursors := [] }

/-- The exposed plate leaves the queue, and the channel's next state (R126). -/
def Part.leaveExposing (p : Part) (k : Fin 2) (n : Fin 64) (next : List (Fin 64) → ChannelState) : Part :=
  let queue := p.channels[k].queue.filter (· != n)
  let q := p.changeChannel k fun c =>
    { c with queue := queue, state := next queue, idlePending := c.idlePending || next queue == .idle }
  (movedPlates p q).foldl Part.plateStatus q

/-- The state of a channel after its plate is DONE. -/
def afterDone : List (Fin 64) → ChannelState
  | [] => .idle
  | _ :: _ => .primed

/-- The final block ends the plate (R114, R134). -/
def Part.endPlate (p : Part) (k : Fin 2) (n : Fin 64) : Part :=
  let c := p.channels[k]
  let p := p.changeSummary n fun s => { s with endTick := p.tick, checksum := ~~~ c.checksum, valid := c.order }
  let p := (p.changePlate n fun x => { x with state := .done }).unpinAll n
  let p := (p.dropUse n).dropCursors k
  let p := (p.plateStatus n).raise .plateDone
    (.plate { p.channelForm n with tail := p.plates[n].summary.bytes })
  (((p.leaveExposing k n afterDone).feed k).endClosing k)

/-- The accounting of a served block of a live plate (R131 to R134). -/
def Part.accountBlock (p : Part) (k : Fin 2) (h : InHand) (x : Composed) : Part :=
  let n := h.plate
  let copy := h.copy
  let p := p.setChannel k { p.channels[k].account h.offset x.bytes with inHand := none }
  let p := p.changeSummary n fun s =>
    s.account (copy.columnAt h.offset == copy.stride / 64 - 1) x.cause.isSome
  let p := (p.reportHatch k n h.offset x.cause).reportMark k n h.offset
  if h.offset + 64 = copy.rasterBytes then p.endPlate k n else p

/-- A block whose plate was cancelled while it was in hand has been answered (R99, R135): the set's use is released and
the cursors are discarded. -/
def Part.endCancelled (p : Part) (k : Fin 2) (h : InHand) : Part :=
  (p.setChannel k { p.channels[k] with inHand := none, cursors := [] }).changeUse h.copy.screenSet (· - 1)

/-- The block in hand composed, answered and accounted for. -/
def Part.serveBlock (p : Part) (k : Fin 2) (h : InHand) (t : TileMemory) : Part × List Byte :=
  let x := p.compose k h t
  (if h.live then p.accountBlock k h x else p.endCancelled k h, x.bytes)

end Sys2Proof.Machine
end

