-- ==== Sys2Proof/Machine/Intake.lean ====
section
/-! DEFINITION. The intake parsers and the acceptance filter (chapter 1). -/

namespace Sys2Proof.Machine

/-- A written block of an intake window as its parser receives it (R1). -/
structure ParserBlock where
  stream  : Fin 4
  base    : Nat
  size    : Nat
  addr    : Nat
  bytes   : List Byte
  strobes : BitVec 64
  deriving DecidableEq, Repr

/-- Blocks of the window (1.1). -/
def ParserBlock.count (b : ParserBlock) : Nat := b.size / 64

/-- Index of the block in its window. -/
def ParserBlock.index (b : ParserBlock) : Nat := (b.addr - b.base) / 64

/-- The successor of a block (1.1). -/
def ParserBlock.successor (b : ParserBlock) (i : Nat) : Nat := (i + 1) % b.count

/-- All 64 strobes are set (R1). -/
def ParserBlock.fullStrobe (b : ParserBlock) : Bool := b.strobes == BitVec.allOnes 64

/-- A change of a stream's parser, its fields of the status header rewritten (R24), once for all that changes in it.
DESIGN CHOICE, unsafe: log 41. -/
def Part.changeParser (p : Part) (k : Fin 4) (f : Parser → Parser) : Part :=
  (p.setParser k (f p.parsers[k])).headerWrite (.stream k)

/-! ## The filter (R14, R15) -/

/-- An entry matches a header (R14). -/
def FilterEntry.matches_ (f : FilterEntry) (h : Header) : Bool :=
  (h.edition ^^^ f.edition) &&& f.editionMask == 0 && (h.zone ^^^ f.zone) &&& f.zoneMask == 0
    && f.pageLow ≤ h.page && h.page ≤ f.pageHigh && f.seps.getLsbD h.sep

/-- The entry that decides a header: the first enabled one that matches (R15). -/
def Part.filterHit (p : Part) (h : Header) : Option (Fin 16) :=
  ((numbered p.filters).find? fun x => x.2.enable && x.2.matches_ h).map fun x => x.1

/-- A decision by an action and a hit number. -/
def FilterAction.decision : FilterAction → Nat → Decision
  | .accept, n => .accept n
  | .reject, n => .reject n

/-- The filter's decision on a header; the deciding entry counts its hit in its status record (R15). -/
def Part.filterDecide (p : Part) (h : Header) : Part × Decision :=
  match p.filterHit h with
  | none => (p, p.params.defaultAction.decision 16)
  | some i =>
    let f := p.filters[i]
    ((p.setFilter i { f with hits := satInc Config.max32 f.hits }).statusWrite (.filter i), f.action.decision i.val)

/-! ## The start of a parcel (R6, R11, R13) -/

/-- What the sequence check makes of a header (R13). -/
inductive SequenceCheck
  | inOrder
  | gap (first : Word) (count : Word)
  | late
  deriving DecidableEq, Repr

def sequenceCheck (expected : Option Word) (s : Word) : SequenceCheck :=
  match expected with
  | none => .inOrder
  | some x => if s = x then .inOrder else if (s - x).msb then .late else .gap x (s - x)

/-- The sequence check taken by a parser. -/
def Parser.checkSequence (x : Parser) (s : Word) : Parser :=
  match sequenceCheck x.sequence s with
  | .late => { x with late := satInc Config.max32 x.late }
  | .inOrder => { x with sequence := some (s + 1) }
  | .gap _ _ => { x with sequence := some (s + 1) }

/-- The report of a gap. -/
def Part.reportGap (p : Part) (k : Fin 4) (c : SequenceCheck) (addr : Nat) : Part :=
  match c with
  | .inOrder => p
  | .late => p
  | .gap first count =>
    p.raise .seqGap
      (.page { stream := k.val, a := first.toNat, b := count.toNat, addr := addr
               flags := presence true false false false })

/-- Streaming validation as it is prepared: the verdict, the slot it was started on, the validator (R11). -/
structure Validation where
  verdict   : Verdict := .notRun
  slotRef   : Option SlotRef := none
  validator : Option SpanValidator := none
  deriving DecidableEq, Repr

/-- The validation of a well-formed accepted header (R11). -/
def Part.prepareValidation (p : Part) (h : Header) : Validation :=
  match parcelKind? h.kind, p.versionSlot h.id h.version with
  | some kind, some n =>
    let s := p.slots[n]
    let ref : SlotRef := { slot := n, alloc := s.alloc }
    match kind, s.geom.entryRef? kind h.index with
    | .head, _ => {}
    | .fill, _ => {}
    | _, none => { slotRef := some ref }
    | _, some (.band b) =>
      { verdict := .good, slotRef := some ref
        validator := some { width := s.geom.width, lineCount := s.geom.lineCount b.val } }
    | _, some (.tone r) =>
      let d := s.geom.regions[r]
      { verdict := if h.length = d.rows * d.cols then .good else .malformed h.length, slotRef := some ref }
  | _, _ => {}

/-- The decision and the validation of a header (R6, steps 2 to 4). -/
def Part.decideHeader (p : Part) (h : Header) (fault : Option FieldFault) : Part × Decision × Validation :=
  if fault.isSome ∨ parcelKind? h.kind = some .fill then (p, .none, {})
  else
    match p.filterDecide h with
    | (q, .accept hit) => (q, .accept hit, q.prepareValidation h)
    | (q, d) => (q, d, {})

/-- The parser's state loaded by a header (R6, steps 5 and 6). -/
def Parser.load (x : Parser) (h : Header) (fault : Option FieldFault) (d : Decision) (v : Validation) (next : Nat) :
    Parser :=
  { x with
    state := if h.length = 0 then .seek else .payload
    expected := next
    remaining := h.length
    crc := 0xFFFFFFFF
    header := some h
    decision := d
    fieldFault := fault
    verdict := v.verdict
    validator := v.validator
    slotRef := v.slotRef
    capture := [] }

/-! ## The finish (R9, R12, R152) -/

/-- The validator replaced, the parser's verdict following it (R11). -/
def Parser.setValidator (x : Parser) (v : SpanValidator) : Parser := { x with validator := some v, verdict := v.verdict }

/-- The end checks of the validator, where one runs (R11, R53). -/
def Parser.endChecks (x : Parser) : Parser :=
  match x.validator with
  | none => x
  | some v => x.setValidator v.finish

/-- A finished accepted parcel as it is handed over, after the end checks (R11, R12). -/
def Parser.parcel (x : Parser) (k : Fin 4) (kind : ParcelKind) (h : Header) (hit : Nat) (b : ParserBlock)
    (tick : Word) : Parcel :=
  { stream := k
    kind := kind
    header := h
    hit := hit
    loc := { addr := b.base + 64 * b.successor h.block, len := h.length, base := b.base, size := b.size }
    computedCrc := ~~~ x.crc
    verdict := x.verdict
    slotRef := x.slotRef
    capture := x.capture
    tick := tick }

/-- The page form of a header: kind, identity and version as written (R9). -/
def Header.form (h : Header) (k : Fin 4) : PageForm :=
  { pageForm h.id h.version with kind := h.kind, stream := k.val, a := h.block }

/-- A finished parcel closed by the first row of R9's table that applies. -/
def Part.finishParcel (p : Part) (b : ParserBlock) : Part :=
  let k := b.stream
  let x := p.parsers[k]
  match x.header with
  | none => p
  | some h =>
    match x.fieldFault, parcelKind? h.kind, x.decision with
    | some f, _, _ =>
      (p.changeParser k fun x => { x with state := .seek }).raise .parcelInvalid
        (.page { h.form k with cause := f.code })
    | none, some kind, .accept hit =>
      let p := p.setTransit (p.transit ++ [x.endChecks.parcel k kind h hit b p.tick])
      p.changeParser k fun x => { x.endChecks with state := .seek, filed := satInc Config.max32 x.filed }
    | none, _, .reject _ =>
      p.changeParser k fun x => { x with state := .seek, rejected := satInc Config.max32 x.rejected }
    | none, _, _ => p.changeParser k fun x => { x with state := .seek }

/-- A valid header starts a parcel (R6); `resync` where it was found away from E in SEEK, or in HUNT (R4, R5). The
stream's fields are rewritten once for the resync count, the expected sequence and the late count, before SEQ_GAP, and
once for the parcel loaded; a finish in the same event makes a third rewrite. DESIGN CHOICE, unsafe: log 41. -/
def Part.startParcel (p : Part) (b : ParserBlock) (resync : Bool) : Part :=
  let k := b.stream
  let h := parseHeader b.bytes b.index
  let check := sequenceCheck p.parsers[k].sequence h.sequence
  let p := p.changeParser k fun x =>
    { x with resyncs := if resync then satInc Config.max32 x.resyncs else x.resyncs }.checkSequence h.sequence
  let p := p.reportGap k check b.addr
  let fault := h.fieldFault b.count
  let d := p.decideHeader h fault
  let p := d.1.changeParser k fun x => x.load h fault d.2.1 d.2.2 (b.successor b.index)
  if h.length = 0 then p.finishParcel b else p

/-! ## SEEK, HUNT and PAYLOAD (R4, R5, R7, R8) -/

/-- A block that is no header is counted as a stray write. -/
def Part.stray (p : Part) (k : Fin 4) : Part :=
  p.changeParser k fun x => { x with strays := satInc Config.max32 x.strays }

/-- A block examined in HUNT (R5). -/
def Part.huntBlock (p : Part) (b : ParserBlock) : Part :=
  match headerFault b.bytes b.strobes with
  | none => p.startParcel b true
  | some _ => p.stray b.stream

/-- A block examined in SEEK (R4). -/
def Part.seekBlock (p : Part) (b : ParserBlock) : Part :=
  let k := b.stream
  let expected := p.parsers[k].expected
  match headerFault b.bytes b.strobes with
  | none => p.startParcel b (b.index != expected)
  | some f =>
    if b.index = expected then
      (p.changeParser k fun x => { x with state := .hunt }).raise .headerBad
        (.page { stream := k.val, cause := f.code, addr := b.addr, flags := presence true false false false })
    else p.stray k

/-- Payload bytes taken by the validator, the verdict following it (R7, R11). -/
def Parser.validate (x : Parser) (bs : List Byte) : Parser :=
  match x.validator with
  | none => x
  | some v => x.setValidator (v.feedAll bs)

/-- A block consumed (R7). -/
def Parser.consume (x : Parser) (bytes : List Byte) (next : Nat) : Parser :=
  let m := min 64 x.remaining
  let bs := bytes.take m
  let x := x.validate bs
  { x with
    crc := crcRun x.crc bs
    capture := if (x.header.map fun h => h.kind) = some 1 then (x.capture ++ bs).take 192 else x.capture
    remaining := x.remaining - m
    expected := next }

/-- PARCEL_BROKEN, after the stream's fields have been rewritten (R8, R20, R24). -/
def Part.reportBroken (p : Part) (k : Fin 4) (x : Parser) (cause : BreakCause) (addr : Option Nat) : Part :=
  match x.header with
  | none => p
  | some h =>
    p.raise .parcelBroken
      (.page { h.form k with
        cause := cause.code
        b := h.length - x.remaining
        c := x.remaining
        addr := addr.getD 0
        flags := presence addr.isSome false false false })

/-- A block taken in PAYLOAD: consumed at E with full strobes, else it breaks the parcel and is examined as in HUNT
(R7, R8). -/
def Part.payloadBlock (p : Part) (b : ParserBlock) : Part :=
  let k := b.stream
  let x := p.parsers[k]
  if b.index = x.expected ∧ b.fullStrobe then
    let y := x.consume b.bytes (b.successor x.expected)
    let p := p.setParser k y
    if y.remaining = 0 then p.finishParcel b else p
  else
    let cause := if b.index = x.expected then BreakCause.partialStrobe else BreakCause.offSequence
    let p := p.changeParser k fun x => { x with state := .hunt }
    (p.reportBroken k x cause (some b.addr)).huntBlock b

/-- A written block taken by the parser of its stream. -/
def Part.parserBlock (p : Part) (b : ParserBlock) : Part :=
  match p.parsers[b.stream].state with
  | .seek => p.seekBlock b
  | .hunt => p.huntBlock b
  | .payload => p.payloadBlock b

/-! ## Window events and the restart (R19 to R21) -/

/-- The parser set up by a window LOAD (R19): its counters are kept. -/
def Parser.setUp (x : Parser) : Parser :=
  { filed := x.filed, rejected := x.rejected, strays := x.strays, resyncs := x.resyncs, late := x.late }

/-- The parser after a window CLOSE (R20): expected sequence and counters are kept. -/
def Parser.closed (x : Parser) : Parser := { x.setUp with sequence := x.sequence }

/-- The CLOSE of an intake window at the parser of its stream (R20). -/
def Part.closeParser (p : Part) (k : Fin 4) : Part :=
  let x := p.parsers[k]
  let p := p.changeParser k Parser.closed
  if x.state = .payload then p.reportBroken k x .closed none else p

/-- The parser after a plant restart (R21). -/
def Parser.restarted (x : Parser) : Parser :=
  match x.state with
  | .payload => { state := .hunt, expected := x.expected }
  | _ => { x with sequence := none, filed := 0, rejected := 0, strays := 0, resyncs := 0, late := 0 }

/-- The five counters cleared (R23, R47). -/
def Parser.clearCounters (x : Parser) : Parser :=
  { x with filed := 0, rejected := 0, strays := 0, resyncs := 0, late := 0 }

end Sys2Proof.Machine
end

