-- ==== Sys2Proof/Machine/Path.lean ====
section
/-! DEFINITION. The path classifier (R167), the taking of a command (R177), transactions in flight (R168, R169). -/

namespace Sys2Proof.Machine

/-! ## Classes of blocks (R167) -/

/-- The class of a block. -/
inductive BlockClass
  | control (line : Line)
  | plate (window : Fin 16)
  | intake (window : Fin 16)
  | memory
  deriving DecidableEq, Repr

/-- The address lies in the range of the window. -/
def Window.covers (w : Window) (a : Nat) : Bool := w.base ≤ a && a < w.base + w.size

/-- The window has a range: it is ACTIVE or CLOSING (R171). -/
def Window.live (w : Window) : Bool := w.state != .inactive

/-- The lowest window that meets a test. -/
def Part.findWindow (p : Part) (test : Window → Bool) : Option (Fin 16) :=
  ((numbered p.windows).find? fun x => test x.2).map fun x => x.1

/-- The plate window a block lies in. -/
def Part.plateWindow (p : Part) (a : Nat) : Option (Fin 16) :=
  p.findWindow fun w => w.live && w.cls == some .plate && w.covers a

/-- The intake window a block lies in. -/
def Part.intakeWindow (p : Part) (a : Nat) : Option (Fin 16) :=
  p.findWindow fun w => w.state == .active && w.cls == some .intake && w.covers a

/-- The class of the block at an address (R167). -/
def Part.classify (p : Part) (a : Nat) : BlockClass :=
  if p.base ≤ a ∧ a < p.base + Config.controlArea then .control (controlLine (a - p.base))
  else
    match p.plateWindow a with
    | some n => .plate n
    | none =>
      match p.intakeWindow a with
      | some n => .intake n
      | none => .memory

/-- The channel of a plate window. -/
def Window.channel (w : Window) : Fin 2 := ⟨w.binding % 2, Nat.mod_lt _ (by decide)⟩

/-- The stream of an intake window. -/
def Window.stream (w : Window) : Fin 4 := ⟨w.binding % 4, Nat.mod_lt _ (by decide)⟩

/-! ## Write blocks -/

/-- A write block that has the form of a command: byte 0 strobed and other than 0 (R177). -/
def isCommand (w : WriteBlock) : Bool := w.strobes.getLsbD 0 && w.data[0] != 0

/-- A forwarded write: in memory with its strobes, and offered to the trample monitor (R149, R167). -/
def Part.forwardWrite (p : Part) (w : WriteBlock) : Part :=
  (p.forward w.addr.toNat w.data w.strobes).trampleTest w.source w.addr.toNat

/-- The start-up sweep is running (R180). -/
def Part.startingUp (p : Part) : Bool :=
  match p.sweep with
  | .startUp _ => true
  | _ => false

/-- A plant restart is in progress: from the dispatch of the accepted RESTART until its result (R180, R187). -/
def Part.restarting (p : Part) : Bool :=
  match p.sweep with
  | .restart _ => true
  | _ => false

/-- A command taken: the record locked, and read whole after the write (R177). One taken during a plant restart is
barred from acting (R180). -/
def Part.takeCommand (p : Part) (r : RecordId) : Part :=
  p.ownRead.setRecord r
    { p.unit r with
      stage := if p.restarting then .barred else .taken
      copy := p.mem.readBytes (p.base + r.offset) r.size }

/-- A forwarded write of the read-count block: the report unit takes the read count where all its four bytes are
strobed (R190). -/
def Part.readCountBlock (p : Part) (w : WriteBlock) : Part :=
  if w.strobes.extractLsb' 0 4 = BitVec.allOnes 4 then
    p.takeReadCount (BitVec.ofNat 32 (leField w.data.toList 0 4))
  else p

/-- A write block of a control-area line. -/
def Part.writeControl (p : Part) (w : WriteBlock) : Line → Part × BlockOutcome
  | .partOwned => (p, .refused)
  | .unwatched => (p.forwardWrite w, .forwarded)
  | .readCount => ((p.forwardWrite w).readCountBlock w, .forwarded)
  | .record r b =>
    if (p.unit r).stage ≠ .unlocked then (p, .refused)
    else if b = 0 ∧ isCommand w then
      if p.startingUp then (p, .refused) else ((p.forwardWrite w).takeCommand r, .forwarded)
    else (p.forwardWrite w, .forwarded)

/-- A write block of an intake window as its parser receives it. -/
def Window.parserBlock (x : Window) (w : WriteBlock) : ParserBlock :=
  { stream := x.stream, base := x.base, size := x.size, addr := w.addr.toNat, bytes := w.data.toList
    strobes := w.strobes }

/-- A forwarded write of an intake window: its parser takes the block (R1, R167). The trample monitor and the directory
come before the parser, so that their reports of the block are taken before the parser's: R189 leaves the order of
reports that different blocks raise in one step open. DESIGN CHOICE, unsafe: log 37. -/
def Part.writeIntake (p : Part) (w : WriteBlock) (n : Fin 16) : Part :=
  (p.forwardWrite w).parserBlock (p.windows[n].parserBlock w)

/-- What becomes of a write block of a class (R167). -/
def Part.writeClass (p : Part) (w : WriteBlock) : BlockClass → Part × BlockOutcome
  | .control line => p.writeControl w line
  | .plate _ => (p, .refused)
  | .intake n => (p.writeIntake w n, .forwarded)
  | .memory => (p.forwardWrite w, .forwarded)

/-- A write block taken by the classifier, and what becomes of it (R167). -/
def Part.takeWriteBlock (p : Part) (w : WriteBlock) : Part × BlockOutcome := p.writeClass w (p.classify w.addr.toNat)

/-! ## Read blocks -/

/-- The bytes the memory controller returns for a block (R168). -/
def Part.returnedBlock (p : Part) (r : ReadBlock) : List Byte :=
  (List.range 64).map fun i => p.mem.returned r.returned (r.addr.toNat + i)

/-- A read block forwarded to the memory controller, and its data (R167, R168). -/
def Part.readMemory (p : Part) (r : ReadBlock) : Part × BlockOutcome :=
  ({ p with port := p.port.grantPassing }, .data (p.returnedBlock r))

/-- What becomes of a block that a composer has been given: answered at once, or in hand. -/
def readOutcome (k : Fin 2) : Option (List Byte) → BlockOutcome
  | some bytes => .data bytes
  | none => .composing k

/-- A read block of a plate window (R125). A composer that holds a block takes no other: none. -/
def Part.readWindow (p : Part) (r : ReadBlock) (n : Fin 16) : Option (Part × BlockOutcome) :=
  let k := p.windows[n].channel
  if p.channels[k].inHand.isSome then none
  else
    let x := p.windowRead k (r.addr.toNat - p.windows[n].base) r.source r.returned
    some (x.1, readOutcome k x.2)

/-- What becomes of a read block of a class (R167). -/
def Part.readClass (p : Part) (r : ReadBlock) : BlockClass → Option (Part × BlockOutcome)
  | .control _ => some (p.readMemory r)
  | .plate n => p.readWindow r n
  | .intake _ => some (p.readMemory r)
  | .memory => some (p.readMemory r)

/-- A read block taken by the classifier, and what becomes of it (R125, R167). -/
def Part.takeReadBlock (p : Part) (r : ReadBlock) : Option (Part × BlockOutcome) :=
  p.readClass r (p.classify r.addr.toNat)

/-! ## Transactions (R168, R169) -/

/-- Blocks of the longest transaction. -/
def maxTransaction : Nat := 16

/-- A block continues a transaction: its source, direction and next address, with room for it (log 6). -/
def Xfer.continuedBy (x : Xfer) (source : Fin 16) (isRead : Bool) (a : Nat) : Bool :=
  x.source == source && x.isRead == isRead && !x.closed && x.next == a && x.blocks.length < maxTransaction

/-- A transaction with one more block. -/
def Xfer.add (x : Xfer) (o : BlockOutcome) (last : Bool) : Xfer :=
  { x with next := x.next + 64, blocks := x.blocks ++ [o]
           closed := last || x.blocks.length + 1 == maxTransaction }

/-- The transactions in flight with a block added: to the one it continues, else as the first of a new one, which
closes what its source had open. -/
def addBlock (xs : List Xfer) (source : Fin 16) (isRead : Bool) (a : Nat) (o : BlockOutcome) (last : Bool) :
    List Xfer :=
  if xs.any fun x => x.continuedBy source isRead a then
    xs.map fun x => if x.continuedBy source isRead a then x.add o last else x
  else
    xs.map (fun x => if x.source = source then { x with closed := true } else x)
      ++ [{ source := source, isRead := isRead, next := a + 64, blocks := [o], closed := last }]

/-- The block is answered. -/
def BlockOutcome.settled : BlockOutcome → Bool
  | .composing _ => false
  | _ => true

/-- The data of a block of a read. -/
def BlockOutcome.bytes : BlockOutcome → List Byte
  | .data bs => bs
  | _ => []

/-- The answer of a whole transaction (R168). -/
def Xfer.answer (x : Xfer) : UpAnswer :=
  { source := x.source
    isRead := x.isRead
    refused := x.blocks.any (· == .refused)
    data := if x.isRead then x.blocks.map BlockOutcome.bytes else [] }

/-- A transaction that can be answered: all its blocks taken and settled. -/
def Xfer.ready (x : Xfer) : Bool := x.closed && x.blocks.all BlockOutcome.settled

/-- The answer of a source's oldest transaction where it is ready, and the transactions left (R168, R169). -/
def respond (source : Fin 16) : List Xfer → Option (UpAnswer × List Xfer)
  | [] => none
  | x :: xs =>
    if x.source = source then (if x.ready then some (x.answer, xs) else none)
    else (respond source xs).map fun y => (y.1, x :: y.2)

/-- The block a composer has answered, settled in its transaction. -/
def settleBlock (xs : List Xfer) (k : Fin 2) (bytes : List Byte) : List Xfer :=
  xs.map fun x =>
    { x with blocks := x.blocks.map fun o => if o = .composing k then .data bytes else o }

end Sys2Proof.Machine
end

