-- ==== Sys2Proof/Machine/Commands.lean ====
section
/-! DEFINITION. The command unit: dispatch (R177, R179, R180), the sweeps (R185, R187), and how a command of the queue
acts on the state. -/

namespace Sys2Proof.Machine

/-- The outcome of a command. -/
abbrev Result := Host.Outcome State Fault Refusal

/-- An act of the part; while RESETn is low the part does nothing (R184). -/
def whenUp (s : State) (f : State → State) : Result := .next (if s.resetn then f s else s)

/-- An act on everything the blocks of the part share. -/
def onPart (s : State) (f : Part → Part) : Result := whenUp s fun s => { s with part := f s.part }

/-! ## Dispatch (R177, R179, R180) -/

/-- The stage of a record's command replaced. -/
def Part.setStage (p : Part) (r : RecordId) (st : CmdStage) : Part := p.setRecord r { p.unit r with stage := st }

/-- A command has been taken and not yet dispatched (R177). -/
def CmdStage.undispatched (st : CmdStage) : Bool := st == .taken || st == .barred

/-- The record waits for the dispatch of the command (none: of a code it does not take). -/
def Part.awaits (p : Part) (r : RecordId) (c : Option Command) : Bool :=
  (p.unit r).stage.undispatched && command? r (p.unit r).code == c

/-- A plant restart bars the record's command: it was taken during one, or before one that is in progress (R180). -/
def Part.barred (p : Part) (r : RecordId) : Bool := (p.unit r).stage == .barred || p.restarting

/-- A command dispatched to the block that owns its record: the block acts, or, where a plant restart bars the command,
does not act and the command waits for its BUSY (R177, R180). A record that does not wait for this command is left
alone (log 3). -/
def Part.dispatch (p : Part) (r : RecordId) (c : Option Command) (act : Part → Part) : Part :=
  if p.awaits r c then (if p.barred r then p.setStage r .busy else act p) else p

/-- The internal copy of a record (R177). -/
def Part.copyOf (p : Part) (r : RecordId) : List Byte := (p.unit r).copy

/-! ## The sweeps (R185, R187) -/

/-- A record that a sweep writes. -/
inductive SweepItem
  | status (r : RecordId)
  | mirror (n : Fin 512)
  deriving DecidableEq, Repr

/-- The status records the start-up sweep writes, in ascending address order (R185). -/
def startUpRecords : List RecordId :=
  [RecordId.header] ++ (List.finRange 16).map RecordId.window ++ (List.finRange 16).map RecordId.filter
    ++ (List.finRange 8).map RecordId.screenSet ++ (List.finRange 64).map RecordId.plate ++ [RecordId.directory]

/-- The status records the restart's sweep writes, in ascending address order (R187). -/
def restartRecords : List RecordId :=
  [RecordId.header] ++ (List.finRange 8).map RecordId.screenSet ++ (List.finRange 64).map RecordId.plate

/-- The 512 directory mirror records. -/
def mirrorItems : List SweepItem := (List.finRange 512).map SweepItem.mirror

/-- The records of the start-up sweep (R185). -/
def startUpItems : List SweepItem := startUpRecords.map SweepItem.status ++ mirrorItems

/-- The records of the restart's sweep (R187). -/
def restartItems : List SweepItem := restartRecords.map SweepItem.status ++ mirrorItems

/-- The records a sweep has still to write. -/
def Sweep.left : Sweep → List SweepItem
  | .none => []
  | .startUp n => startUpItems.drop n
  | .restart n => restartItems.drop n

/-- One more record written. -/
def Sweep.next : Sweep → Sweep
  | .none => .none
  | .startUp n => .startUp (n + 1)
  | .restart n => .restart (n + 1)

/-- DONE of a screen set LOAD (R93). -/
def Part.finishLoad (p : Part) (n : Fin 8) : Part := p.finish (.screenSet n) .done p.sets[n].loadDetail

/-- A set whose LOAD has completed but whose DONE waits for the sweep (R94). -/
def Part.loadWaits (p : Part) (n : Fin 8) : Bool :=
  (p.unit (.screenSet n)).stage == .running && p.sets[n].state == .loaded

/-- One record written by the sweep with its contents as they stand; a LOAD's DONE that waited for its set's record
follows it (R94). -/
def Part.sweepItem (p : Part) (it : SweepItem) : Part :=
  let p := p.setSweep p.sweep.next
  match it with
  | .status (.screenSet n) =>
    let p := p.statusWrite (.screenSet n)
    if p.loadWaits n then p.finishLoad n else p
  | .status r => p.statusWrite r
  | .mirror n => p.mirrorWrite n p.slots[n].mirror bodyBlocks

/-- The rest of the sweep. -/
def Part.sweepRest (p : Part) : Part := p.sweep.left.foldl Part.sweepItem p

/-- The sweep as far as a record, that one included. -/
def Part.sweepThrough (p : Part) (it : SweepItem) : Part :=
  if p.sweep.left.contains it then
    ((p.sweep.left.takeWhile (· != it)) ++ [it]).foldl Part.sweepItem p
  else p

/-- The end of a sweep: its last record, then STARTED and the held reports (R185, R187, R196). -/
def Part.endSweep (p : Part) (cause : StartCause) : Part :=
  ((p.sweepRest).setSweep .none).raiseStarted cause

end Sys2Proof.Machine
end

