-- ==== Sys2Proof/Machine/DirectoryCommands.lean ====
section
/-! DEFINITION. The meanings of the directory commands DISCARD_PAGE, DISCARD_EDITION and CLEAR_COUNTERS (R45 to R47). -/

namespace Sys2Proof.Machine

/-- What a DISCARD has done: slots freed, slots left pinned. -/
structure Discarded where
  part   : Part
  freed  : Nat := 0
  pinned : Nat := 0

/-- One matching slot of a DISCARD (R45). -/
def Discarded.slot (d : Discarded) (n : Fin 512) : Discarded :=
  if d.part.slots[n].pins = 0 then { d with part := d.part.freeSlot n, freed := d.freed + 1 }
  else { d with pinned := d.pinned + 1 }

/-- A DISCARD of the slots and WAITING orphans that match (R45, R46). -/
def Part.discard (p : Part) (slot : Slot → Bool) (orphan : Orphan → Bool) : Part :=
  let d := (p.slotsWhere fun s => s.inUse && slot s).foldl Discarded.slot { part := p }
  (d.part.dropOrphans (fun o => o.waiting && orphan o) .discard).finish .directory
    (if d.pinned = 0 then .done else .pinned) (discardDetail d.freed d.pinned)

/-- The version a DISCARD_PAGE names: 0 is every version (R45). -/
def DirectoryFields.names (f : DirectoryFields) (id : Identity) (version : Nat) : Bool :=
  id == { edition := f.edition, zone := f.zone, page := f.page, sep := f.sep }
    && (f.version == 0 || f.version == version)

/-- DISCARD_PAGE (R45). No rule gives the detail of its BAD_PARAM (log 5). -/
def Part.doDiscardPage (p : Part) : Part :=
  let f := parseDirectory (p.copyOf .directory)
  if 3 < f.sep ∨ f.page < 1 ∨ 999 < f.page then p.finishFree .directory .badParam
  else p.discard (fun s => f.names s.id s.version) fun o => f.names o.id o.version

def execDiscardPage (s : State) : Result :=
  onPart s fun p => p.dispatch .directory (some .discardPage) Part.doDiscardPage

/-- DISCARD_EDITION (R46). -/
def Part.doDiscardEdition (p : Part) : Part :=
  let f := parseDirectory (p.copyOf .directory)
  p.discard (fun s => s.id.edition == f.edition) fun o => o.id.edition == f.edition

def execDiscardEdition (s : State) : Result :=
  onPart s fun p => p.dispatch .directory (some .discardEdition) Part.doDiscardEdition

/-- CLEAR_COUNTERS (R47). -/
def Part.doClearCounters (p : Part) : Part :=
  let p := { p with
    reports := { p.reports with damage := Vector.replicate 4 0 }
    parsers := p.parsers.map Parser.clearCounters }
  (forEach 4 (fun (p : Part) k => p.headerWrite (.stream k)) (p.headerWrite .damage)).finishFree .directory .done

def execClearCounters (s : State) : Result :=
  onPart s fun p => p.dispatch .directory (some .clearCounters) Part.doClearCounters

end Sys2Proof.Machine
end

