-- ==== Sys2Proof/Machine/DirectoryEvents.lean ====
section
/-! DEFINITION. The meanings of the directory's own events: filing (R27, R31) and adoption (R43). -/

namespace Sys2Proof.Machine

/-- The next parcel of a stream to be filed: of its parcels in transit the one that finished first (R12). Of parcels of
different streams the queue of commands says which is filed first, whichever finished first. DESIGN CHOICE, safe:
log 40. -/
def Part.nextParcel (p : Part) (k : Fin 4) : Option Parcel := p.transit.find? fun c => c.stream == k

/-- The transit without the next parcel of a stream: its watch ends as it is filed (R152, R153). -/
def Part.leaveTransit (p : Part) (k : Fin 4) : Part := p.setTransit (p.transit.eraseP fun c => c.stream == k)

/-- The next parcel of a stream filed where it is a HEAD (R27). -/
def Part.fileNextHead (p : Part) (k : Fin 4) : Part :=
  match p.nextParcel k with
  | none => p
  | some c => if c.kind = .head then (p.leaveTransit k).fileHead c else p

def execFileHead (stream : Fin 4) (s : State) : Result := onPart s fun p => p.fileNextHead stream

/-- The next parcel of a stream filed where it is a BAND or TONE (R31). -/
def Part.fileNextBandTone (p : Part) (k : Fin 4) : Part :=
  match p.nextParcel k with
  | none => p
  | some c => if c.kind = .head then p else (p.leaveTransit k).fileBandTone c

def execFileBandTone (stream : Fin 4) (s : State) : Result := onPart s fun p => p.fileNextBandTone stream

/-- The next adoption begins (R42, R43). -/
def Part.beginAdoption (p : Part) : Part :=
  match nextAdoption p.orphans with
  | none => p
  | some (o, b) => p.startAdoption o b

def execAdoptionStart (s : State) : Result := onPart s Part.beginAdoption

/-- The adoption in flight completes (R43). -/
def Part.finishAdoption (p : Part) (returned : List Host.Cell) : Part :=
  match currentAdoption p.orphans with
  | none => p
  | some (o, b) => p.endAdoption o b returned

def execAdoptionComplete (returned : List Host.Cell) (s : State) : Result :=
  onPart s fun p => p.finishAdoption returned

end Sys2Proof.Machine
end

