-- ==== Sys2Proof/Machine/Exposure.lean ====
section
/-! DEFINITION. The meanings of the exposure events: the completion of an open (R55) and the composition of a block
(R138). -/

namespace Sys2Proof.Machine

/-- The block in hand, the cursor, its request and its open that a completion names; none where there is no such
open. -/
def Channel.findOpen (c : Channel) (placement : Fin 4) (what : OpenTarget) :
    Option (InHand × Cursor × PrepItem × Opening) :=
  match c.inHand, c.cursors.find? fun x => x.placement == placement with
  | some h, some x =>
    match h.items.find? fun it => it.placement == placement, x.findOpening what with
    | some it, some o => some (h, x, it, o)
    | _, _ => none
  | _, _ => none

/-- An open finishes its re-read (R55, R56, R63). -/
def Part.finishOpen (p : Part) (k : Fin 2) (placement : Fin 4) (what : OpenTarget) (returned : List Host.Cell) :
    Part :=
  match p.channels[k].findOpen placement what with
  | none => p
  | some (h, x, it, o) => p.completeOpen k x h it what o returned

def execOpenComplete (channel : Fin 2) (placement : Fin 4) (what : OpenTarget) (returned : List Host.Cell)
    (s : State) : Result :=
  onPart s fun p => p.finishOpen channel placement what returned

/-- Preparation has ended: the block is composed, answered in its transaction and accounted for (R131, R138). -/
def State.composeBlock (s : State) (k : Fin 2) : State :=
  match s.part.channels[k].inHand with
  | none => s
  | some h =>
    if h.prepared then
      let x := s.part.serveBlock k h s.tiles
      { s with part := x.1, xfers := settleBlock s.xfers k x.2 }
    else s

def execBlockComposition (channel : Fin 2) (s : State) : Result := whenUp s fun s => s.composeBlock channel

end Sys2Proof.Machine
end

