-- ==== Sys2Proof/Machine/PathCommands.lean ====
section
/-! DEFINITION. The meanings of the host commands of the header, window and filter records (R17, R172 to R175, R181),
and of a code a record does not take (R179). -/

namespace Sys2Proof.Machine

/-! ## SET_PARAMS (R181, R182) -/

/-- A value taken into a range. -/
def clampRange (low high v : Nat) : Nat := min (max v low) high

/-- The parameters a SET_PARAMS sets; none where the default filter action refuses it (R181). -/
def ParamFields.params? (f : ParamFields) : Option Params :=
  (filterAction? f.action).map fun a =>
    { gapMs := clampRange 100 600000 f.gapMs
      orphanMs := clampRange 1000 600000 f.orphanMs
      threshold := f.threshold
      defaultAction := a
      suppress := f.suppress
      enable := f.enable }

/-- SET_PARAMS: the six values together at the rewrite of the status header, then the result (R181). -/
def Part.doSetParams (p : Part) : Part :=
  let f := parseParams (p.copyOf .header)
  match f.params? with
  | none => p.finish .header .badParam 1
  | some x =>
    ((p.setParams x).headerWrite .params).finish .header .done
      (paramsDetail (x.gapMs != f.gapMs) (x.orphanMs != f.orphanMs))

def execSetParams (s : State) : Result := onPart s fun p => p.dispatch .header (some .setParams) Part.doSetParams

/-! ## Window LOAD (R172, R173) -/

/-- Two ranges share a byte. -/
def rangesMeet (a n b m : Nat) : Bool := a < b + m && b < a + n

/-- The bytes a plate's raster needs of a window: width / 8 x height (R105, R172). -/
def PlateRecord.needs (r : PlateRecord) : Nat := r.width / 8 * r.height

/-- A plate that is WAITING, READY or QUEUED on a channel and needs more than `size` bytes (R172, check 9). -/
def Plate.outgrows (x : Plate) (k size : Nat) : Bool :=
  x.open_ && x.copy.channel.val == k && decide (size < x.copy.needs)

/-- The lowest plate of a channel that needs more than `size` bytes. -/
def Part.outgrown (p : Part) (k size : Nat) : Option (Fin 64) :=
  ((numbered p.plates).find? fun x => x.2.outgrows k size).map fun x => x.1

/-- The result of a refused window LOAD and its detail (R172); none where it is accepted. -/
def Part.windowRefusal (p : Part) (n : Fin 16) (f : WindowFields) : Option (ResultCode × Nat) :=
  if p.windows[n].live then some (.inUse, p.windows[n].state.code)
  else
    match f.class? with
    | none => some (.badParam, 1)
    | some cls =>
      if f.base % 4096 ≠ 0 then some (.badParam, 2)
      else if f.size % 4096 ≠ 0 ∨ f.size < 65536 ∨ 268435456 < f.size then some (.badParam, 3)
      else if Config.addressSpace < f.base + f.size then some (.badParam, 4)
      else if rangesMeet f.base f.size p.base Config.controlArea then some (.overlap, 16)
      else
        match p.findWindow fun w => w.live && rangesMeet f.base f.size w.base w.size with
        | some m => some (.overlap, m.val)
        | none =>
          match p.findWindow fun w => w.live && w.cls == some cls && w.binding == f.binding with
          | some m => some (.inUse, m.val + 32)
          | none =>
            match cls with
            | .intake => none
            | .plate => (p.outgrown f.binding f.size).map fun m => (.badParam, 64 + m.val)

/-- The parser of an accepted INTAKE window set up, its stream's fields rewritten (R19, R24). -/
def Part.setUpParser (p : Part) (w : Window) : Part :=
  match w.cls with
  | some .intake => p.changeParser w.stream Parser.setUp
  | _ => p

/-- Window LOAD (R172, R173). -/
def Part.doWindowLoad (p : Part) (n : Fin 16) : Part :=
  let f := parseWindow (p.copyOf (.window n))
  match p.windowRefusal n f with
  | some (code, detail) => p.finish (.window n) code detail
  | none =>
    let w : Window :=
      { state := .active, cls := f.class?, binding := f.binding, base := f.base, size := f.size }
    (((p.setWindow n w).setUpParser w).statusWrite (.window n)).finishFree (.window n) .done

def execWindowLoad (n : Fin 16) (s : State) : Result :=
  onPart s fun p => p.dispatch (.window n) (some .windowLoad) fun p => p.doWindowLoad n

/-! ## Window CLOSE (R174, R175) -/

/-- A window becomes INACTIVE: the status record, DONE with the state it had. -/
def Part.inactivate (p : Part) (n : Fin 16) : Part :=
  ((p.setWindow n { p.windows[n] with state := .inactive }).statusWrite (.window n)).finish (.window n) .done
    WindowState.active.code

/-- Window CLOSE by state and class (R174): a PLATE window of an EXPOSING channel becomes CLOSING and keeps its lock
(R175). -/
def Part.doWindowClose (p : Part) (n : Fin 16) : Part :=
  let w := p.windows[n]
  match w.state, w.cls with
  | .inactive, _ => p.finish (.window n) .done WindowState.inactive.code
  | .closing, _ => p
  | .active, some .plate =>
    if p.channels[w.channel].state = .exposing then
      ((p.setWindow n { w with state := .closing }).setStage (.window n) .running).statusWrite (.window n)
    else p.inactivate n
  | .active, some .intake =>
    let q := (p.setWindow n { w with state := .inactive }).closeParser w.stream
    (q.statusWrite (.window n)).finish (.window n) .done WindowState.active.code
  | .active, none => p.inactivate n

def execWindowClose (n : Fin 16) (s : State) : Result :=
  onPart s fun p => p.dispatch (.window n) (some .windowClose) fun p => p.doWindowClose n

/-! ## Filter commands (R17) -/

/-- The entry a filter LOAD makes; none where it is refused (R17). -/
def FilterFields.entry? (f : FilterFields) : Option FilterEntry :=
  match filterAction? f.action with
  | none => none
  | some a =>
    if 1 ≤ f.pageLow ∧ f.pageLow ≤ 999 ∧ 1 ≤ f.pageHigh ∧ f.pageHigh ≤ 999 ∧ f.pageLow ≤ f.pageHigh then
      some
        { enable := f.enable
          action := a
          edition := f.edition
          editionMask := f.editionMask
          zone := f.zone
          zoneMask := f.zoneMask
          pageLow := f.pageLow
          pageHigh := f.pageHigh
          seps := f.seps
          hits := 0 }
    else none

/-- Filter LOAD (R17). No rule gives the details of its results (log 5). -/
def Part.doFilterLoad (p : Part) (n : Fin 16) : Part :=
  match (parseFilter (p.copyOf (.filter n))).entry? with
  | none => p.finishFree (.filter n) .badParam
  | some f => ((p.setFilter n f).statusWrite (.filter n)).finishFree (.filter n) .done

def execFilterLoad (n : Fin 16) (s : State) : Result :=
  onPart s fun p => p.dispatch (.filter n) (some .filterLoad) fun p => p.doFilterLoad n

/-- Filter DISABLE (R17). -/
def Part.doFilterDisable (p : Part) (n : Fin 16) : Part :=
  ((p.setFilter n { p.filters[n] with enable := false }).statusWrite (.filter n)).finishFree (.filter n) .done

def execFilterDisable (n : Fin 16) (s : State) : Result :=
  onPart s fun p => p.dispatch (.filter n) (some .filterDisable) fun p => p.doFilterDisable n

/-! ## A code the record does not take (R179) -/

def Part.doUnknown (p : Part) (r : RecordId) : Part := p.finish r .unknown (p.unit r).code

def execUnknownCommand (record : RecordId) (s : State) : Result :=
  onPart s fun p => p.dispatch record none fun p => p.doUnknown record

end Sys2Proof.Machine
end

