-- ==== Sys2Proof/Machine/Timers.lean ====
section
/-! DEFINITION. The meanings of the commands of time: the tick and the three deadlines (R183, R38, R41, R115). -/

namespace Sys2Proof.Machine

/-- The tick counter advances by one and wraps (R183). -/
def Part.advanceTick (p : Part) : Part := { p with tick := p.tick + 1 }

def execTick (s : State) : Result := onPart s Part.advanceTick

/-- The state code of each of the 64 band and 16 tone positions, 0xF for a position not in use (R207). -/
def Slot.stateCodes (s : Slot) : List Nat :=
  ((numbered s.bands).map fun x => if x.1.val < s.geom.bandCount then x.2.state.code else 15)
    ++ (numbered s.tones).map fun x => if x.1.val < s.geom.toneCount then x.2.state.code else 15

/-- The gap timer of a FILLING slot has reached its deadline (R38). -/
def Part.gapExpired (p : Part) (s : Slot) : Bool :=
  s.state == .filling && (s.deadline.map (reached p.tick)).getD false

/-- A gap timer expires: the slot stalls, the mirror, PAGE_STALLED (R38). -/
def Part.stall (p : Part) (n : Fin 512) : Part :=
  if p.gapExpired p.slots[n] then
    let p := p.changeSlot n fun s => { s with state := .stalled, deadline := none }
    p.raise .pageStalled (.stalled (p.slots[n].form n) p.slots[n].stateCodes)
  else p

def execGapTimerExpiry (slot : Fin 512) (s : State) : Result := onPart s fun p => p.stall slot

/-- A WAITING orphan reaches its expiry tick and is dropped (R41). -/
def Part.expireOrphan (p : Part) (position : Nat) : Part :=
  match p.orphans[position]? with
  | none => p
  | some o =>
    if o.waiting && reached p.tick o.expiry then
      (p.setOrphans (p.orphans.eraseIdx position)).orphanDropped o .expired none
    else p

def execOrphanExpiry (position : Nat) (s : State) : Result := onPart s fun p => p.expireOrphan position

/-- A plate is armed (R104). -/
def PlateState.armed : PlateState → Bool
  | .waiting => true
  | .ready => true
  | .queued => true
  | .exposing => true
  | _ => false

/-- The arm deadline of a plate is watched and reached, and its flag not yet set (R115). -/
def Part.deadlineDue (p : Part) (n : Fin 64) : Bool :=
  let x := p.plates[n]
  x.state.armed && x.copy.deadline != 0 && !x.deadlinePassed && reached p.tick x.copy.deadline

/-- A lower-numbered plate's equal deadline is still to be taken (R115: ascending plate number). -/
def Part.deadlineBefore (p : Part) (n : Fin 64) : Bool :=
  (List.finRange 64).any fun m =>
    m.val < n.val && p.deadlineDue m && p.plates[m].copy.deadline == p.plates[n].copy.deadline

/-- An arm deadline is reached: the flag, the status record, the deadline action of a WAITING plate (R115). -/
def Part.passDeadline (p : Part) (n : Fin 64) : Part :=
  if p.deadlineDue n && !p.deadlineBefore n then
    let p := (p.changePlate n fun x => { x with deadlinePassed := true }).plateStatus n
    if p.plates[n].state = .waiting then (p.deadlineAction n).feedAll else p
  else p

def execArmDeadline (plate : Fin 64) (s : State) : Result := onPart s fun p => p.passDeadline plate

end Sys2Proof.Machine
end

