-- ==== Sys2Proof/Machine/PlateCommands.lean ====
section
/-! DEFINITION. The meanings of the plate commands ARM, CANCEL and RELEASE (R105, R106, R120, R121). -/

namespace Sys2Proof.Machine

/-! ## The checks of ARM (R105) -/

/-- A placement passes check 11. -/
def PlacementFields.valid (q : PlacementFields) (width height : Nat) : Bool :=
  1 ≤ q.page && q.page ≤ 999 && q.rotation ≤ 1 && 1 ≤ q.frameW && 1 ≤ q.frameH && q.x0 + q.frameW ≤ width
    && q.y0 + q.frameH ≤ height

/-- Two frames share a pixel: their x ranges meet and their y ranges meet. -/
def framesMeet (a b : PlacementFields) : Bool :=
  rangesMeet a.x0 a.frameW b.x0 b.frameW && rangesMeet a.y0 a.frameH b.y0 b.frameH

/-- The pairs of placements in the order of check 12: by the lower number, then the higher. -/
def placementPairs : List (Nat × Nat) := [(0, 1), (0, 2), (0, 3), (1, 2), (1, 3), (2, 3)]

/-- The first pair of frames that share a pixel. -/
def framesOverlap (qs : List PlacementFields) : Option (Nat × Nat) :=
  placementPairs.find? fun x =>
    match qs[x.1]?, qs[x.2]? with
    | some a, some b => framesMeet a b
    | _, _ => false

/-- An ACTIVE plate window of the channel whose size is at least `size` (R105, check 13). -/
def Part.hasWindow (p : Part) (channel size : Nat) : Bool :=
  (p.findWindow fun w =>
    w.state == .active && w.cls == some .plate && w.binding == channel && decide (size ≤ w.size)).isSome

/-- The internal copy an ARM takes of its record (R103). -/
def PlateFields.record (f : PlateFields) (policy : HoldPolicy) (action : DeadlineAction) : PlateRecord :=
  { label := f.label
    channel := ⟨f.channel % 2, Nat.mod_lt _ (by decide)⟩
    sep := f.sep
    width := f.width
    height := f.height
    screenSet := ⟨f.screenSet % 8, Nat.mod_lt _ (by decide)⟩
    hold := policy
    deadline := BitVec.ofNat 32 f.deadline
    action := action
    mark := f.mark
    placements := f.placements.map fun q =>
      { edition := q.edition, zone := q.zone, page := q.page, version := q.version, frameW := q.frameW
        frameH := q.frameH, x0 := q.x0, y0 := q.y0, turned := q.rotation == 1 } }

/-- The outcome of ARM's checks: refused with a result and a detail, or the internal copy (R105). -/
inductive ArmCheck
  | refused (code : ResultCode) (detail : Nat)
  | accepted (copy : PlateRecord)
  deriving DecidableEq, Repr

/-- Checks 11 to 14. -/
def Part.armPlacements (p : Part) (f : PlateFields) (copy : PlateRecord) : ArmCheck :=
  match f.placements.findIdx? fun q => !q.valid f.width f.height with
  | some k => .refused .badParam (16 + k)
  | none =>
    match framesOverlap f.placements with
    | some x => .refused .overlap (packBytes x.1 x.2)
    | none =>
      if p.hasWindow f.channel copy.needs = false then .refused .badParam 10
      else if p.sets[copy.screenSet].state ≠ .loaded then .refused .noScreen p.sets[copy.screenSet].state.code
      else .accepted copy

/-- The checks of ARM in their order (R105). -/
def Part.armCheck (p : Part) (n : Fin 64) (f : PlateFields) : ArmCheck :=
  if p.plates[n].state.armed then .refused .inUse p.plates[n].state.code
  else if f.count < 1 ∨ 4 < f.count then .refused .badParam 1
  else if 1 < f.channel then .refused .badParam 2
  else if 3 < f.sep then .refused .badParam 3
  else if f.width % 512 ≠ 0 ∨ f.width < 512 ∨ 32768 < f.width then .refused .badParam 4
  else if f.height < 1 ∨ 32768 < f.height then .refused .badParam 5
  else if 7 < f.screenSet then .refused .badParam 6
  else
    match holdPolicy? f.hold, deadlineAction? f.action with
    | none, _ => .refused .badParam 7
    | some _, none => .refused .badParam 8
    | some policy, some action =>
      if f.height ≤ f.mark then .refused .badParam 9 else p.armPlacements f (f.record policy action)

/-! ## ARM (R106) -/

/-- Step 2 for one placement: resolved where a slot is found; a mismatch is kept for step 5. -/
def Part.armPlacement (p : Part) (n : Fin 64) (x : Fin 4 × Placement) : Part × Option Subject :=
  match p.lookFor (p.plates[n].copy.identity x.2) x.2.version with
  | none => (p, none)
  | some slot =>
    match p.resolveTo n x.1 x.2 slot with
    | (q, true) => (q, none)
    | (q, false) => (q, some (q.mismatchSubject n x.1 x.2 slot))

/-- Step 2 for the placements in their order. -/
def Part.armResolve (n : Fin 64) : Part → List (Fin 4 × Placement) → Part × List Subject
  | p, [] => (p, [])
  | p, x :: rest =>
    let a := p.armPlacement n x
    let b := Part.armResolve n a.1 rest
    (b.1, a.2.toList ++ b.2)

/-- Number of placements that an ARM resolved, for the detail of its DONE (R106): a slot stays shown after its pin is
released (R205). For a plate that FAILED within the same ARM, whose placements hold no resolution any more (R109), these
are the ones that step 2 resolved; R106 does not say. DESIGN CHOICE, unsafe: log 44. -/
def Plate.resolved (x : Plate) : Nat := x.res.toList.countP fun r => r.shown

/-- An accepted ARM (R106), up to the result: steps 1 to 4, with the deadline action's change of state, then the status
record, then the reports in the order of the steps. -/
def Part.armPlate (p : Part) (n : Fin 64) (copy : PlateRecord) : Part :=
  let p := p.setPlate n { state := .waiting, copy := copy }
  let a := Part.armResolve n p copy.numberedPlacements
  let p := a.1
  let passed := copy.deadline != 0 && reached p.tick copy.deadline
  let p := p.changePlate n fun x => { x with deadlinePassed := passed }
  let ready := p.readyToRun n
  let fails := !ready && passed && copy.action == .fail
  let tail := p.deadlineTail n
  let p :=
    if ready then p.becomeReady n false
    else if fails then p.failState n .deadline
    else if passed then p.becomeReady n true
    else p
  let p := a.2.foldl (fun p s => p.raise .platePageMismatch s) (p.plateStatus n)
  if fails then p.failReport n .deadline tail else p

/-- ARM (R105, R106). The detail carries the placements resolved and the state when the result is written. -/
def Part.doArm (p : Part) (n : Fin 64) : Part :=
  match p.armCheck n (parsePlate (p.copyOf (.plate n))) with
  | .refused code detail => p.finish (.plate n) code detail
  | .accepted copy =>
    let p := (p.armPlate n copy).feedAll
    p.finish (.plate n) .done (packBytes p.plates[n].resolved p.plates[n].state.code)

def execArm (n : Fin 64) (s : State) : Result :=
  onPart s fun p => p.dispatch (.plate n) (some .arm) fun p => p.doArm n

/-! ## CANCEL (R120, R135) -/

/-- The block in hand, if any, at a CANCEL of its plate (R135, R138). -/
def Part.holdBlock (p : Part) (k : Fin 2) : Part :=
  match p.channels[k].inHand with
  | none => p
  | some h => p.setChannel k { p.channels[k] with inHand := some (p.cancelledBlock k h) }

/-- With no block in hand a CANCEL releases the set and the cursors at once (R67, R99); else they wait until the block
has been answered. -/
def Part.releaseComposer (p : Part) (k : Fin 2) (n : Fin 64) : Part :=
  match p.channels[k].inHand with
  | none => (p.dropUse n).dropCursors k
  | some _ => p

/-- The composer's part of a CANCEL of the EXPOSING plate (R135, R175): the summary's end, the block in hand with its
snapshot before the pins go, DRAINING, the pins, the set and the cursors, the windows that are CLOSING. -/
def Part.cancelExposing (p : Part) (n : Fin 64) : Part :=
  let k := p.channelOf n
  let checksum := ~~~ p.channels[k].checksum
  let p := p.changePlate n fun x =>
    { x with
      state := .cancelled
      summary := { x.summary with endTick := p.tick, checksum := checksum, valid := false } }
  (((((p.holdBlock k).leaveExposing k n fun _ => .draining).unpinAll n).releaseComposer k n).endClosing k)

/-- CANCEL of a WAITING, READY or QUEUED plate. -/
def Part.cancelOpen (p : Part) (n : Fin 64) : Part :=
  let queued := p.plates[n].state == .queued
  let p := (p.changePlate n fun x => { x with state := .cancelled }).leaveLists n
  let p := if queued then p.dropUse n else p
  p.unpinAll n

/-- CANCEL by the plate's state (R120): the status record, PLATE_CANCELLED, the result, and the queue fed. -/
def Part.doCancel (p : Part) (n : Fin 64) : Part :=
  let st := p.plates[n].state
  if st.armed then
    let p := if st = .exposing then p.cancelExposing n else p.cancelOpen n
    let p := (p.plateStatus n).raise .plateCancelled (.plate { p.channelForm n with cause := st.code })
    (p.finish (.plate n) .done st.code).feed (p.channelOf n)
  else p.finish (.plate n) .done st.code

def execCancel (n : Fin 64) (s : State) : Result :=
  onPart s fun p => p.dispatch (.plate n) (some .cancel) fun p => p.doCancel n

/-! ## RELEASE (R121) -/

def Part.doRelease (p : Part) (n : Fin 64) : Part :=
  if p.plates[n].state.armed then p.finish (.plate n) .inUse p.plates[n].state.code
  else ((p.setPlate n {}).plateStatus n).finishFree (.plate n) .done

def execRelease (n : Fin 64) (s : State) : Result :=
  onPart s fun p => p.dispatch (.plate n) (some .release) fun p => p.doRelease n

end Sys2Proof.Machine
end

