-- ==== Sys2Proof/Machine/Resets.lean ====
section
/-! DEFINITION. The meanings of the reset and sweep commands: hard reset, the start-up sweep, plant restart and its
sweep, BUSY results (R180, R184 to R187). -/

namespace Sys2Proof.Machine

/-- Every block in its state after hard reset (R184): board memory is not cleared. The free-value counter is the
model's own. -/
def Part.hardReset (p : Part) (cabase : BitVec 20) (tkdiv : BitVec 16) (sweep : Sweep) : Part :=
  { cabase := cabase, tkdiv := tkdiv, sweep := sweep, mem := p.mem, freeReads := p.freeReads }

/-- RESETn falls (R184): transactions in flight are dropped, commands in flight write no result. -/
def execResetAssert (s : State) : Result :=
  .next
    { s with
      resetn := false
      part := s.part.hardReset s.part.cabase s.part.tkdiv .none
      tiles := []
      xfers := []
      answer := none }

/-- RESETn rises (R184): the straps are sampled and the start-up sweep begins. A line that is high does not rise. -/
def execResetRelease (cabase : BitVec 20) (tkdiv : BitVec 16) (s : State) : Result :=
  .next
    (if s.resetn then s
     else
       { s with
         resetn := true
         part := s.part.hardReset cabase tkdiv (.startUp 0)
         tiles := []
         xfers := []
         answer := none })

/-- The start-up sweep ends (R185): its last record, STARTED, the held reports. -/
def Part.endStartUp (p : Part) : Part := if p.startingUp then p.endSweep .hardReset else p

def execStartUpSweepEnd (s : State) : Result := onPart s Part.endStartUp

/-- The channel refuses a RESTART: it is EXPOSING or its composer holds a block (R186). -/
def Channel.refusesRestart (c : Channel) : Bool := c.state == .exposing || c.inHand.isSome

/-- The report unit at the dispatch of a RESTART (R199). -/
def ReportUnit.restarted : ReportUnit := {}

/-- A header rewrite issued before the restart shows nothing of the new numbering when it is answered. -/
def OwnWrite.restarted : OwnWrite → OwnWrite
  | .statusHeader _ => .statusHeader 0
  | w => w

/-- A command that was taken before a plant restart and is not yet dispatched will not act (R180). -/
def CmdUnit.barTaken (u : CmdUnit) : CmdUnit := if u.stage = .taken then { u with stage := .barred } else u

/-- What an accepted RESTART clears at once (R186): the directory, the transit, the plates, the use counts, the report
unit; commands not yet dispatched are barred (R180), and the restart's sweep begins. -/
def Part.clearForRestart (p : Part) : Part :=
  { p with
    sweep := .restart 0
    port := { p.port with own := p.port.own.map OwnWrite.restarted }
    reports := ReportUnit.restarted
    units := p.units.map CmdUnit.barTaken
    transit := []
    slots := Vector.replicate 512 {}
    orphans := []
    plates := Vector.replicate 64 {}
    sets := p.sets.map fun x => { x with use := 0 } }

/-- A channel after a plant restart (R145): as after hard reset. -/
def Channel.restarted (_ : Channel) : Channel := {}

/-- The parsers at an accepted RESTART (R21), each with the rewrite of its stream's fields (R24). -/
def Part.restartParsers (p : Part) : Part := forEach 4 (fun (p : Part) k => p.changeParser k Parser.restarted) p

/-- The channels at an accepted RESTART (R126, R145), each that was not IDLE with the rewrite of its fields (R144). -/
def Part.restartChannels (p : Part) : Part := forEach 2 (fun (p : Part) k => p.changeChannel k Channel.restarted) p

/-- The event of an accepted RESTART (R186): the header record stays locked, everything of `clearForRestart`, the
parsers and the channels. -/
def Part.acceptRestart (p : Part) : Part :=
  (p.setStage .header .running).clearForRestart.restartParsers.restartChannels

/-- RESTART at its dispatch (R186). -/
def Part.restart (p : Part) : Part :=
  let a := p.channels[(0 : Fin 2)].refusesRestart
  let b := p.channels[(1 : Fin 2)].refusesRestart
  if a || b then p.finish .header .inUse (restartDetail a b) else p.acceptRestart

def execRestart (s : State) : Result := onPart s fun p => p.dispatch .header (some .restart) Part.restart

/-- The restart's sweep ends (R187): its last record, STARTED, the held reports, the RESTART's DONE. -/
def Part.endRestart (p : Part) : Part :=
  if p.restarting then (p.endSweep .restart).finishFree .header .done else p

def execRestartSweepEnd (s : State) : Result := onPart s Part.endRestart

/-- The BUSY of a screen set or plate record waits for the sweep to write its status record; that of any other record
waits for STARTED (R180). -/
def Part.busyResult (p : Part) (r : RecordId) : Part :=
  if (p.unit r).stage = .busy then
    match r with
    | .screenSet n => (p.sweepThrough (.status (.screenSet n))).finish (.screenSet n) .busy 0
    | .plate n => (p.sweepThrough (.status (.plate n))).finish (.plate n) .busy 0
    | r => if p.restarting then p else p.finish r .busy 0
  else p

def execBusyResult (record : RecordId) (s : State) : Result := onPart s fun p => p.busyResult record

end Sys2Proof.Machine
end

