-- ==== Sys2Proof/Machine/ScreenCommands.lean ====
section
/-! DEFINITION. The meanings of the screen set commands and of the completion of a tile read (R90 to R96). -/

namespace Sys2Proof.Machine

/-- Screen set LOAD (R90, R91): an accepted one enters LOADING and keeps its lock until its completion. -/
def Part.doSetLoad (p : Part) (n : Fin 8) : Part :=
  let f := parseSet (p.copyOf (.screenSet n))
  match loadRefusal p.sets[n] p.owners n f with
  | some (code, detail) => p.finish (.screenSet n) code detail
  | none =>
    let x := p.sets[n].loading f
    (((p.setSet n x).setOwners (takeAreas p.owners n x.start x.count)).setStage (.screenSet n) .running).statusWrite
      (.screenSet n)

def execScreenSetLoad (n : Fin 8) (s : State) : Result :=
  onPart s fun p => p.dispatch (.screenSet n) (some .setLoad) fun p => p.doSetLoad n

/-- The LOAD completes at the set: LOADED, the status record, DONE; during a plant restart DONE waits for the sweep to
write the set's record (R93, R94). -/
def Part.completeLoad (p : Part) (n : Fin 8) (values : List Nat) : Part :=
  let p := (p.ownRead.setSet n (p.sets[n].loaded values)).statusWrite (.screenSet n)
  if p.restarting && p.sweep.left.contains (.status (.screenSet n)) then p else p.finishLoad n

/-- The tile read and the transfer table of a LOADING set are complete (R92, R93). -/
def State.completeLoad (s : State) (n : Fin 8) (returned : List Host.Cell) : State :=
  let x := s.part.sets[n]
  if x.state = .loading then
    let values := tileValues s.part.mem returned x.source (x.w * x.h)
    { s with part := s.part.completeLoad n values, tiles := storeTile s.tiles x values }
  else s

def execLoadComplete (n : Fin 8) (returned : List Host.Cell) (s : State) : Result :=
  whenUp s fun s => s.completeLoad n returned

/-- The set EMPTY (R84, R88, R96). -/
def ScreenSet.emptied (x : ScreenSet) : ScreenSet := { use := x.use }

/-- Screen set UNLOAD (R96). -/
def Part.doUnload (p : Part) (n : Fin 8) : Part :=
  let x := p.sets[n]
  if x.use ≠ 0 then p.finish (.screenSet n) .inUse x.use
  else if x.state = .loaded then
    (((p.setSet n x.emptied).setOwners (releaseAreas p.owners n)).statusWrite (.screenSet n)).finish (.screenSet n)
      .done 0
  else (p.statusWrite (.screenSet n)).finish (.screenSet n) .done 0

def execUnload (n : Fin 8) (s : State) : Result :=
  onPart s fun p => p.dispatch (.screenSet n) (some .setUnload) fun p => p.doUnload n

end Sys2Proof.Machine
end

