-- ==== Sys2Proof/WellFormed.lean ====
section
/-! DEFINITION. Which commands a sender can send: a block lies at a block address (0.6), a returned byte lies in the
address space (0.6), a position lies in the orphan queue (R40). -/

namespace Sys2Proof

/-- An address of 40 bits that is a multiple of 64 (0.6: "40 bits, block-aligned in transactions"). -/
def blockAligned (a : BitVec 40) : Bool := a.toNat % Config.blockBytes == 0

/-- Every returned byte has an address of 40 bits. -/
def returnedInSpace (cells : List Host.Cell) : Bool := cells.all fun c => c.1 < Config.addressSpace

/-- The check of a command's operands. -/
def Instr.wellFormed : Instr → Bool
  | .resetAssert => true
  | .resetRelease _ _ => true
  | .startUpSweepEnd => true
  | .tick => true
  | .gapTimerExpiry _ => true
  | .orphanExpiry position => position < Config.orphanRoom
  | .armDeadline _ => true
  | .upstreamWriteBlock w => blockAligned w.addr
  | .upstreamReadBlock r => blockAligned r.addr && returnedInSpace r.returned
  | .transactionResponse _ => true
  | .bodyWrite w => blockAligned w.addr
  | .readCountWrite _ _ _ _ => true
  | .statusHeaderPosted => true
  | .fileHead _ => true
  | .fileBandTone _ => true
  | .adoptionStart => true
  | .adoptionComplete returned => returnedInSpace returned
  | .plateWindowRead r => blockAligned r.addr && returnedInSpace r.returned
  | .openComplete _ _ _ returned => returnedInSpace returned
  | .blockComposition _ => true
  | .setParams => true
  | .restart => true
  | .restartSweepEnd => true
  | .busyResult _ => true
  | .windowLoad _ => true
  | .windowClose _ => true
  | .filterLoad _ => true
  | .filterDisable _ => true
  | .screenSetLoad _ => true
  | .loadComplete _ returned => returnedInSpace returned
  | .unload _ => true
  | .arm _ => true
  | .cancel _ => true
  | .release _ => true
  | .discardPage => true
  | .discardEdition => true
  | .clearCounters => true
  | .unknownCommand _ => true

end Sys2Proof
end

