-- ==== Sys2Proof/Machine/Traffic.lean ====
section
/-! DEFINITION. The meanings of the commands of the memory path: write and read blocks, body and read-count writes,
answers upstream and of the memory controller (R167, R168, R177, R190, R195), and the reads of a plate window (R129). -/

namespace Sys2Proof.Machine

/-- A write block taken and added to its transaction. -/
def State.takeWrite (s : State) (w : WriteBlock) : State :=
  let x := s.part.takeWriteBlock w
  { s with part := x.1, xfers := addBlock s.xfers w.source false w.addr.toNat x.2 w.last }

/-- The part after a read block, which is added to its transaction; a block that its composer cannot take yet waits
upstream. -/
def State.readTaken (s : State) (r : ReadBlock) : Option (Part × BlockOutcome) → State
  | none => s
  | some x => { s with part := x.1, xfers := addBlock s.xfers r.source true r.addr.toNat x.2 r.last }

/-- A read block taken and added to its transaction. -/
def State.takeRead (s : State) (r : ReadBlock) : State := s.readTaken r (s.part.takeReadBlock r)

/-- A block of a transaction: one whose address is no multiple of 64 is none (0.6; log 7). -/
def onBlock (a : BitVec 40) (s : State) (f : State → State) : Result :=
  if blockAligned a then whenUp s f else .fault .unalignedBlock

def execUpstreamWriteBlock (w : WriteBlock) (s : State) : Result := onBlock w.addr s fun s => s.takeWrite w

def execUpstreamReadBlock (r : ReadBlock) (s : State) : Result := onBlock r.addr s fun s => s.takeRead r

/-- A body write is classified as any write block is (R177). -/
def execBodyWrite (w : WriteBlock) (s : State) : Result := onBlock w.addr s fun s => s.takeWrite w

/-- The address of the read-count block of the control header (R202). -/
def Part.readCountAddr (p : Part) : BitVec 40 := BitVec.ofNat 40 (p.base + Config.offReadCount)

/-- A write of the read-count block (R190), classified as any write block is. -/
def execReadCountWrite (source : Fin 16) (data : Vector Byte 64) (strobes : BitVec 64) (last : Bool) (s : State) :
    Result :=
  whenUp s fun s =>
    s.takeWrite { source := source, addr := s.part.readCountAddr, data := data, strobes := strobes, last := last }

/-- A plate-window read is classified as any read block is (R125, R129). -/
def execPlateWindowRead (r : ReadBlock) (s : State) : Result := onBlock r.addr s fun s => s.takeRead r

/-- A source's oldest transaction answered as a whole (R168, R169). -/
def State.answerSource (s : State) (source : Fin 16) : State :=
  match respond source s.xfers with
  | none => s
  | some (a, xs) => { s with xfers := xs, answer := some a }

def execTransactionResponse (source : Fin 16) (s : State) : Result := whenUp s fun s => s.answerSource source

/-- The memory controller answers a status-header rewrite (R195). -/
def execStatusHeaderPosted (s : State) : Result := onPart s Part.postHeader

end Sys2Proof.Machine
end

