-- ==== Sys2Proof/Machine/Dispatch.lean ====
section
/-! DEFINITION. The meaning of each command: one arm for each constructor of Instr. -/

namespace Sys2Proof.Machine

def exec (i : Instr) (s : State) : Host.Outcome State Fault Refusal :=
  match i with
  | .resetAssert => Sys2Proof.Machine.execResetAssert s
  | .resetRelease cabase tkdiv => Sys2Proof.Machine.execResetRelease cabase tkdiv s
  | .startUpSweepEnd => Sys2Proof.Machine.execStartUpSweepEnd s
  | .tick => Sys2Proof.Machine.execTick s
  | .gapTimerExpiry slot => Sys2Proof.Machine.execGapTimerExpiry slot s
  | .orphanExpiry position => Sys2Proof.Machine.execOrphanExpiry position s
  | .armDeadline plate => Sys2Proof.Machine.execArmDeadline plate s
  | .upstreamWriteBlock w => Sys2Proof.Machine.execUpstreamWriteBlock w s
  | .upstreamReadBlock r => Sys2Proof.Machine.execUpstreamReadBlock r s
  | .transactionResponse source => Sys2Proof.Machine.execTransactionResponse source s
  | .bodyWrite w => Sys2Proof.Machine.execBodyWrite w s
  | .readCountWrite source data strobes last => Sys2Proof.Machine.execReadCountWrite source data strobes last s
  | .statusHeaderPosted => Sys2Proof.Machine.execStatusHeaderPosted s
  | .fileHead stream => Sys2Proof.Machine.execFileHead stream s
  | .fileBandTone stream => Sys2Proof.Machine.execFileBandTone stream s
  | .adoptionStart => Sys2Proof.Machine.execAdoptionStart s
  | .adoptionComplete returned => Sys2Proof.Machine.execAdoptionComplete returned s
  | .plateWindowRead r => Sys2Proof.Machine.execPlateWindowRead r s
  | .openComplete channel placement what returned => Sys2Proof.Machine.execOpenComplete channel placement what returned s
  | .blockComposition channel => Sys2Proof.Machine.execBlockComposition channel s
  | .setParams => Sys2Proof.Machine.execSetParams s
  | .restart => Sys2Proof.Machine.execRestart s
  | .restartSweepEnd => Sys2Proof.Machine.execRestartSweepEnd s
  | .busyResult record => Sys2Proof.Machine.execBusyResult record s
  | .windowLoad n => Sys2Proof.Machine.execWindowLoad n s
  | .windowClose n => Sys2Proof.Machine.execWindowClose n s
  | .filterLoad n => Sys2Proof.Machine.execFilterLoad n s
  | .filterDisable n => Sys2Proof.Machine.execFilterDisable n s
  | .screenSetLoad n => Sys2Proof.Machine.execScreenSetLoad n s
  | .loadComplete n returned => Sys2Proof.Machine.execLoadComplete n returned s
  | .unload n => Sys2Proof.Machine.execUnload n s
  | .arm n => Sys2Proof.Machine.execArm n s
  | .cancel n => Sys2Proof.Machine.execCancel n s
  | .release n => Sys2Proof.Machine.execRelease n s
  | .discardPage => Sys2Proof.Machine.execDiscardPage s
  | .discardEdition => Sys2Proof.Machine.execDiscardEdition s
  | .clearCounters => Sys2Proof.Machine.execClearCounters s
  | .unknownCommand record => Sys2Proof.Machine.execUnknownCommand record s

end Sys2Proof.Machine
end

