-- ==== Sys2Proof/Safety.lean ====
section
/-! DEFINITION. The invariants of the part: what every step keeps; and the words in which statements speak of commands:
when a command runs, how it ends, which bytes it leaves. -/

namespace Sys2Proof.Machine

/-- Board memory and tile memory stand in their canonical form. -/
def State.storesWf (s : State) : Prop := Memory.wf s.part.mem ∧ TileMemory.wf s.tiles

/-- Every threshold of tile memory lies in 1 to 4095 (R86). -/
def State.thresholdsInRange (s : State) : Prop := ∀ c ∈ s.tiles, c.2 ≠ 0

/-- The orphan queue holds at most 64 entries, no two with one key (R40). -/
def Part.orphansBounded (p : Part) : Prop :=
  p.orphans.length ≤ Config.orphanRoom ∧ p.orphans.Pairwise fun x y => x.sameKey y = false

/-- The hold queue holds at most 511 reports (R196). -/
def Part.holdBounded (p : Part) : Prop := p.reports.hold.length ≤ Config.holdRoom

/-- Unread reports never exceed 512 (R194), nor the records written since the last reset. -/
def ReportUnit.readBounded (r : ReportUnit) : Prop := r.unread ≤ r.recent ∧ r.recent ≤ Config.ringEntries

/-- Saturating counters lie in their ranges (R159, R191). -/
def ReportUnit.countsInRange (r : ReportUnit) : Prop :=
  r.lost ≤ Config.max16 ∧ ∀ k : Fin 4, r.damage[k] ≤ Config.max16

/-- A channel's queue holds up to four plates (R112). -/
def Part.queuesBounded (p : Part) : Prop := ∀ k : Fin 2, p.channels[k].queue.length ≤ Config.queueRoom

/-- The law of current slots (R30): for each page identity at most one slot is current, and every other in-use slot of
that identity is SUPERSEDED and has a lower version than the current slot. -/
def Part.currentSlots (p : Part) : Prop :=
  ∀ n m : Fin 512, n ≠ m → p.slots[n].current = true → p.slots[m].inUse = true → p.slots[m].id = p.slots[n].id →
    p.slots[m].state = .superseded ∧ p.slots[m].version < p.slots[n].version

/-- The byte lies in a part-owned line of the control area (R176, R202). -/
def Part.ownedAt (p : Part) (a : Nat) : Prop :=
  p.base ≤ a ∧ a < p.base + Config.controlArea ∧ controlLine (a - p.base) = .partOwned

/-- While RESETn is low no transaction is in flight and no answer stands (R184). -/
def State.silentInReset (s : State) : Prop := s.resetn = false → s.xfers = [] ∧ s.answer = none

/-! ## Words of the statements -/

/-- The block of a command whose operand is a block of a transaction. -/
def blockOf : Instr → Option (BitVec 40)
  | .upstreamWriteBlock w => some w.addr
  | .upstreamReadBlock r => some r.addr
  | .bodyWrite w => some w.addr
  | .plateWindowRead r => some r.addr
  | _ => none

/-- Every byte outside the ranges, each an offset in the control area and a length, reads as before. -/
def Part.keptOutside (p q : Part) (ranges : List (Nat × Nat)) : Prop :=
  ∀ a, (∀ r ∈ ranges, a < p.base + r.1 ∨ p.base + r.1 + r.2 ≤ a) → q.mem.read a = p.mem.read a

/-- Every byte outside the part-owned lines of the control area reads as before. -/
def Part.keptHostMemory (p q : Part) : Prop := ∀ a, ¬ p.ownedAt a → q.mem.read a = p.mem.read a

/-- The status header (R202). -/
def headerRange : Nat × Nat := (Config.offStatusHeader, 256)

/-- A result block, or a status record of one block (R202). -/
def resultRange (r : RecordId) : Nat × Nat := (r.statusOffset, 64)

/-- A plate's status record (R202). -/
def plateRange (n : Fin 64) : Nat × Nat := ((RecordId.plate n).statusOffset, 128)

/-- A slot's mirror record (R202). -/
def mirrorRange (n : Fin 512) : Nat × Nat := (mirrorOffset n 0, 1536)

/-- What one report may write: its ring entry and the status header (R189, R191). -/
def Part.reportRanges (p : Part) : List (Nat × Nat) := [(ringOffset p.reports.written, 64), headerRange]

/-- The reports of the part after one report, raised now, has been taken (R189). -/
def Part.after (p : Part) (kind : ReportKind) (x : Subject) : ReportUnit :=
  (p.takeReport { kind := kind, tick := p.tick, subject := x }).reports

/-- In part `q` the next ring entry of part `p` holds the report, raised now, where it is written there at all: its class
is not suppressed, STARTED has been written and there is room (R189, R191). -/
def Part.records (p q : Part) (kind : ReportKind) (x : Subject) : Prop :=
  p.params.suppressed kind.cls = false → p.sweep = .none → p.reports.unread < 512 → Memory.wf p.mem →
    q.mem.readBytes (p.base + ringOffset p.reports.written) 64
      = { kind := kind, tick := p.tick, subject := x : Report }.bytes p.reports.written

/-- Part `q` has taken one report more than part `p`, this one. -/
def Part.tells (p q : Part) (kind : ReportKind) (x : Subject) : Prop :=
  q.reports = p.after kind x ∧ p.records q kind x

/-- A write of the block meets no extent: no GOOD entry, no orphan and no parcel in transit has it (R146 to R149). -/
def Part.unwatched (p : Part) (block : Nat) : Prop :=
  (∀ n : Fin 512, p.slots[n].metEntries block = []) ∧ (∀ o ∈ p.orphans, o.loc.meets block = false)
    ∧ ∀ c ∈ p.transit, c.loc.meets block = false

/-- The part is up, the record's command waits for its dispatch and no plant restart bars it (R177, R180). -/
def State.runs (s : State) (r : RecordId) (c : Option Command) : Prop :=
  s.resetn = true ∧ s.part.awaits r c = true ∧ (s.part.unit r).stage = .taken ∧ s.part.restarting = false

/-- A plant restart bars the record's command from acting: it is in progress, or was when the command was taken or
still waited (R180). -/
def State.bars (s : State) (r : RecordId) : Prop :=
  (∃ k, s.part.sweep = .restart k) ∨ (s.part.unit r).stage = .barred

/-- A command of record `r` has ended with this result: the lock has ended, the result fields hold the tag of the
record's copy, the code and the detail, every other record's unit is as before, and the result block in memory shows
the result (R178, R179, R203). -/
def Part.ended (p q : Part) (r : RecordId) (code : ResultCode) (detail : Word) : Prop :=
  q.unit r = { p.unit r with stage := .unlocked, result := { tag := (p.unit r).tag, code := code, detail := detail } }
    ∧ (∀ r', r' ≠ r → q.unit r' = p.unit r')
    ∧ (Memory.wf p.mem → q.mem.readBytes (p.base + r.statusOffset) 8
        = [(p.unit r).tag, BitVec.ofNat 8 code.code, 0, 0] ++ leBytes 4 detail.toNat)

/-- The command answers a next state in which nothing has changed but that record `r`'s command has ended with this
result, shown in its result block (R178, R179). -/
def State.endsOnly (s : State) (c : Instr) (r : RecordId) (code : ResultCode) (detail : Word) : Prop :=
  ∃ t, exec c s = .next t
    ∧ s.part.ended t.part r code detail
    ∧ t = { s with part := { s.part with units := t.part.units, mem := t.part.mem, port := t.part.port } }
    ∧ s.part.keptOutside t.part [resultRange r]

/-- No plate is armed and both READY lists are empty: plate control has nothing to do (R104, R111). -/
def Part.noPlates (p : Part) : Prop :=
  (∀ n : Fin 64, p.plates[n].state.armed = false) ∧ ∀ k : Fin 2, p.channels[k].ready = []

/-- The next parcel of a stream, with the parcels before and after it in the transit (R12). -/
def Part.nextIs (p : Part) (k : Fin 4) (before : List Parcel) (c : Parcel) (after : List Parcel) : Prop :=
  p.transit = before ++ c :: after ∧ (∀ x ∈ before, x.stream ≠ k) ∧ c.stream = k

/-- A HEAD parcel passes every check of R28. -/
def Parcel.validHead (c : Parcel) : Prop :=
  c.computedCrc = c.header.crc ∧ c.header.toneCount ≤ 16 ∧ c.header.length = 12 * c.header.toneCount
    ∧ 1 ≤ c.header.index ∧ c.header.index ≤ 32768 ∧ 1 ≤ c.header.height ∧ c.header.height ≤ 32768
    ∧ 1 ≤ c.header.bandHeight ∧ c.header.bandHeight ≤ 1024
    ∧ c.header.bandCount = ceilDiv c.header.height c.header.bandHeight ∧ c.header.bandCount ≤ 64
    ∧ ∀ r, r < c.header.toneCount →
      let d := parseDescriptor c.capture r
      1 ≤ d.w ∧ 1 ≤ d.h ∧ d.x + d.w ≤ c.header.index ∧ d.y + d.h ≤ c.header.height ∧ 1 ≤ d.scale ∧ d.scale ≤ 16

/-- Every in-use slot of the identity has a lower version (R27, R31). -/
def Part.newerThanAll (p : Part) (id : Identity) (version : Nat) : Prop :=
  ∀ m : Fin 512, p.slots[m].inUse = true → p.slots[m].id = id → p.slots[m].version < version

/-- The next parcel of stream `k` is a valid HEAD of a version newer than every in-use slot of its identity; slot `m` is
the current slot of that identity, slot `n` the lowest FREE one, and no orphan waits (R27 to R30). -/
def Part.supersedes (p : Part) (k : Fin 4) (before : List Parcel) (c : Parcel) (after : List Parcel) (n m : Fin 512) :
    Prop :=
  p.nextIs k before c after ∧ c.kind = .head ∧ c.validHead ∧ p.newerThanAll c.header.id c.header.version
    ∧ p.slots[m].current = true ∧ p.slots[m].id = c.header.id
    ∧ (∀ m' : Fin 512, p.slots[m'].current = true → p.slots[m'].id = c.header.id → m' = m)
    ∧ p.slots[n].state = .free ∧ (∀ m' : Fin 512, m' < n → p.slots[m'].state ≠ .free) ∧ p.orphans = []

/-- The EXPOSING, WAITING, READY or QUEUED plate `i` is the only armed one; it has one placement, which asks for the
newest version of the identity, and both READY lists are empty (R104, R118). -/
def Part.follows (p : Part) (i : Fin 64) (q : Placement) (id : Identity) : Prop :=
  (∀ j : Fin 64, j ≠ i → p.plates[j].state.armed = false) ∧ (∀ k : Fin 2, p.channels[k].ready = [])
    ∧ p.plates[i].copy.placements = [q] ∧ q.version = 0
    ∧ ({ edition := q.edition, zone := q.zone, page := q.page, sep := p.plates[i].copy.sep } : Identity) = id

/-- Every entry in use of the slot is GOOD (R35). -/
def Slot.allGood (s : Slot) : Prop :=
  (∀ i : Fin 64, i.val < s.geom.bandCount → s.bands[i].state = .good)
    ∧ ∀ r : Fin 16, r.val < s.geom.toneCount → s.tones[r].state = .good

/-- The block lies in ordinary memory or in an ACTIVE intake window (R167). -/
def Part.openTo (p : Part) (a : Nat) : Prop := p.classify a = .memory ∨ ∃ m, p.classify a = .intake m

/-- A block that lies in the plate window of a channel (R167): the channel and the offset in the window. -/
def Part.readsPlate (p : Part) (a : Nat) (k : Fin 2) (offset : Nat) : Prop :=
  ∃ n : Fin 16, p.classify a = .plate n ∧ p.windows[n].channel = k ∧ offset = a - p.windows[n].base

/-- The checks 1 to 14 of R105 that an ARM of plate `n` passes. -/
def Part.armable (p : Part) (n : Fin 64) (f : PlateFields) (policy : HoldPolicy) (action : DeadlineAction) : Prop :=
  p.plates[n].state.armed = false ∧ 1 ≤ f.count ∧ f.count ≤ 4 ∧ f.channel ≤ 1 ∧ f.sep ≤ 3
    ∧ f.width % 512 = 0 ∧ 512 ≤ f.width ∧ f.width ≤ 32768 ∧ 1 ≤ f.height ∧ f.height ≤ 32768 ∧ f.screenSet ≤ 7
    ∧ holdPolicy? f.hold = some policy ∧ deadlineAction? f.action = some action ∧ f.mark < f.height
    ∧ (∀ q ∈ f.placements, 1 ≤ q.page ∧ q.page ≤ 999 ∧ q.rotation ≤ 1 ∧ 1 ≤ q.frameW ∧ 1 ≤ q.frameH
        ∧ q.x0 + q.frameW ≤ f.width ∧ q.y0 + q.frameH ≤ f.height)
    ∧ f.placements.Pairwise (fun a b =>
        a.x0 + a.frameW ≤ b.x0 ∨ b.x0 + b.frameW ≤ a.x0 ∨ a.y0 + a.frameH ≤ b.y0 ∨ b.y0 + b.frameH ≤ a.y0)
    ∧ (∃ m : Fin 16, p.windows[m].state = .active ∧ p.windows[m].cls = some .plate
        ∧ p.windows[m].binding = f.channel ∧ f.width / 8 * f.height ≤ p.windows[m].size)
    ∧ ∀ k : Fin 8, k.val = f.screenSet → p.sets[k].state = .loaded

/-- The slots a DISCARD frees: in use, of a page version that it names, with no pin (R45). -/
def Part.freedBy (p : Part) (names : Identity → Nat → Bool) (n : Fin 512) : Bool :=
  p.slots[n].inUse && names p.slots[n].id p.slots[n].version && p.slots[n].pins == 0

/-- The slots a DISCARD leaves pinned (R45). -/
def Part.pinnedAt (p : Part) (names : Identity → Nat → Bool) (n : Fin 512) : Bool :=
  p.slots[n].inUse && names p.slots[n].id p.slots[n].version && p.slots[n].pins != 0

/-- What an accepted DISCARD leaves (R45, R46): the slots it names with no pin are FREE, their allocation numbers kept;
the WAITING orphans it names have left the queue, and with the freed slots the adoptions into them (R39); the result
tells how many slots were freed and how many are pinned. -/
def Part.discarded (p q : Part) (names : Identity → Nat → Bool) : Prop :=
  let freed := (List.finRange 512).countP (p.freedBy names)
  let pinned := (List.finRange 512).countP (p.pinnedAt names)
  (∀ n : Fin 512, q.slots[n]
      = if p.freedBy names n then { alloc := p.slots[n].alloc, change := p.slots[n].change + 1 } else p.slots[n])
    ∧ q.orphans = p.orphans.filter (fun o =>
        match o.binding with
        | none => !names o.id o.version
        | some b => !(p.freedBy names b.ref.slot && b.ref.alloc == p.slots[b.ref.slot].alloc))
    ∧ p.ended q .directory (if pinned = 0 then .done else .pinned) (BitVec.ofNat 32 (freed + 65536 * pinned))

end Sys2Proof.Machine
end

