-- ==== Sys2Proof/Certificates/Slice0/Obligations.lean ====
section
/-! DEFINITION. The statements for the provers. Each says of which rules of the spec it speaks; where one rests on a
choice of the model it names the log entry. Details that no rule states (log 5) are left open: "for some detail". -/

section
open Sys2Proof Sys2Proof.Machine

/-! ## The machine -/

/-- A step is the meaning of the command at the front of the queue, with the rest of the queue behind it; on an empty
queue the part idles (log 16). -/
def Obligations.StepRunsTheFrontCommand : Prop :=
  (∀ (c : Instr) (rest : List Instr) (s : State), s.pending = c :: rest → step s = exec c { s with pending := rest })
  ∧ (∀ s : State, s.pending = [] → step s = .next s)

/-- No command is refused; a command stops only where its block has no block address (0.6, log 7), and no command
touches the queue. -/
def Obligations.EveryCommandAnswers : Prop :=
  ∀ (c : Instr) (s : State),
    ((∃ a, blockOf c = some a ∧ a.toNat % 64 ≠ 0) → exec c s = .fault .unalignedBlock)
    ∧ ((∀ a, blockOf c = some a → a.toNat % 64 = 0) → ∃ t, exec c s = .next t ∧ t.pending = s.pending)

/-- Events whose condition does not hold leave the state as it is (log 3): a timer that is not running, a plate that is
not armed, a stream with no parcel in transit, no adoption, no block in hand, no sweep, no status-header rewrite to be
answered, a set that is not LOADING, a plate record that waits for no command. -/
def Obligations.EventsThatDoNotComeAbout : Prop :=
  ∀ s : State,
    (∀ n : Fin 512, s.part.slots[n].state ≠ .filling ∨ s.part.slots[n].deadline = none →
      exec (.gapTimerExpiry n) s = .next s)
    ∧ (∀ i : Nat, s.part.orphans.length ≤ i → exec (.orphanExpiry i) s = .next s)
    ∧ (∀ n : Fin 64, s.part.plates[n].state.armed = false ∨ s.part.plates[n].copy.deadline = 0 →
      exec (.armDeadline n) s = .next s)
    ∧ (∀ k : Fin 4, (∀ c ∈ s.part.transit, c.stream ≠ k) →
      exec (.fileHead k) s = .next s ∧ exec (.fileBandTone k) s = .next s)
    ∧ ((∀ o ∈ s.part.orphans, o.binding = none) →
      exec .adoptionStart s = .next s ∧ ∀ cells, exec (.adoptionComplete cells) s = .next s)
    ∧ (∀ k : Fin 2, s.part.channels[k].inHand = none →
      exec (.blockComposition k) s = .next s ∧ ∀ i w cells, exec (.openComplete k i w cells) s = .next s)
    ∧ (s.part.sweep = .none →
      exec .startUpSweepEnd s = .next s ∧ exec .restartSweepEnd s = .next s)
    ∧ ((∀ w ∈ s.part.port.own, ∀ n, w ≠ .statusHeader n) → exec .statusHeaderPosted s = .next s)
    ∧ (∀ n : Fin 8, s.part.sets[n].state ≠ .loading → ∀ cells, exec (.loadComplete n cells) s = .next s)
    ∧ (∀ n : Fin 64, (s.part.unit (.plate n)).stage ≠ .taken → (s.part.unit (.plate n)).stage ≠ .barred →
      exec (.arm n) s = .next s ∧ exec (.cancel n) s = .next s ∧ exec (.release n) s = .next s)

/-! ## Resets and sweeps (9.5) -/

/-- The state after hard reset: the values of 9.5 and of each chapter's reset rule; straps and memory: logs 1 and 2. -/
def Obligations.HardResetValues : Prop :=
  let s := State.reset
  let p := s.part
  s.resetn = true ∧ s.xfers = [] ∧ s.answer = none ∧ s.pending = []
    ∧ (∀ e, s.tiles.read e = 4095) ∧ (∀ a, p.mem.read a = 0)
    ∧ p.cabase = 0 ∧ p.tkdiv = 0 ∧ p.sweep = .startUp 0 ∧ p.tick = 0
    ∧ p.params = { gapMs := 5000, orphanMs := 30000, threshold := 0, defaultAction := .accept, suppress := 0,
                   enable := 0 }
    ∧ p.kint = false
    ∧ p.reports.written = 0 ∧ p.reports.posted = 0 ∧ p.reports.read = 0 ∧ p.reports.lost = 0
    ∧ p.reports.saturated = false ∧ p.reports.hold = [] ∧ (∀ k : Fin 4, p.reports.damage[k] = 0)
    ∧ (∀ r, (p.unit r).stage = .unlocked ∧ (p.unit r).result = { tag := 0, code := .noResult, detail := 0 })
    ∧ (∀ n : Fin 16, p.windows[n].state = .inactive)
    ∧ (∀ n : Fin 16, p.filters[n].enable = false ∧ p.filters[n].action = .accept ∧ p.filters[n].pageLow = 1
        ∧ p.filters[n].pageHigh = 1 ∧ p.filters[n].seps = 0 ∧ p.filters[n].hits = 0)
    ∧ (∀ k : Fin 4, p.parsers[k].state = .seek ∧ p.parsers[k].expected = 0 ∧ p.parsers[k].sequence = none
        ∧ p.parsers[k].filed = 0 ∧ p.parsers[k].rejected = 0 ∧ p.parsers[k].strays = 0 ∧ p.parsers[k].resyncs = 0
        ∧ p.parsers[k].late = 0)
    ∧ p.transit = [] ∧ p.orphans = []
    ∧ (∀ n : Fin 512, p.slots[n].state = .free ∧ p.slots[n].alloc = 0 ∧ p.slots[n].change = 0
        ∧ p.slots[n].pins = 0 ∧ p.slots[n].deadline = none)
    ∧ (∀ n : Fin 64, p.plates[n].state = .free ∧ p.plates[n].repins = 0 ∧ p.plates[n].holds = 0
        ∧ p.plates[n].cause = .none ∧ p.plates[n].forced = false ∧ p.plates[n].deadlinePassed = false)
    ∧ (∀ k : Fin 2, p.channels[k].state = .idle ∧ p.channels[k].queue = [] ∧ p.channels[k].ready = []
        ∧ p.channels[k].idlePending = true ∧ p.channels[k].idleReads = 0 ∧ p.channels[k].drainReads = 0
        ∧ p.channels[k].inHand = none ∧ p.channels[k].cursors = [])
    ∧ (∀ n : Fin 8, p.sets[n].state = .empty ∧ p.sets[n].use = 0 ∧ p.sets[n].table = [] ∧ p.owners[n] = none)

/-- RESETn (R184, R185). It falls: every block is in its state after hard reset, transactions in flight are dropped,
board memory stays; the straps' last samples stay until the release. That the state after hard reset, which R184 gives
at the rise, is taken at the fall already is the model's choice, log 26. It rises: the straps are sampled and the start-up
sweep begins; a line that is high does not rise (log 3). While it is low nothing happens but at these two commands. -/
def Obligations.HardReset : Prop :=
  (∀ s : State, exec .resetAssert s = .next
      { resetn := false
        part := { cabase := s.part.cabase, tkdiv := s.part.tkdiv, sweep := .none, mem := s.part.mem
                  freeReads := s.part.freeReads }
        tiles := []
        xfers := []
        answer := none
        pending := s.pending })
  ∧ (∀ (cabase : BitVec 20) (tkdiv : BitVec 16) (s : State),
      (s.resetn = false → exec (.resetRelease cabase tkdiv) s = .next
        { resetn := true
          part := { cabase := cabase, tkdiv := tkdiv, sweep := .startUp 0, mem := s.part.mem
                    freeReads := s.part.freeReads }
          tiles := []
          xfers := []
          answer := none
          pending := s.pending })
      ∧ (s.resetn = true → exec (.resetRelease cabase tkdiv) s = .next s))
  ∧ (∀ (c : Instr) (s : State), s.resetn = false → c ≠ .resetAssert → (∀ a b, c ≠ .resetRelease a b) →
      (∀ a, blockOf c = some a → a.toNat % 64 = 0) → exec c s = .next s)

/-- A sweep ends (R185, R187, R197): with no report held, STARTED is written as the record that the written count
numbers, and the sweep is over; the tables stand as they are, and after hard reset the units but for those of screen
sets, whose late DONE the sweep's record lets go (R94). A restart's end ends the RESTART with DONE; no rule states its
detail (log 5). -/
def Obligations.SweepsEnd : Prop :=
  (∀ (s : State) (k : Nat), s.resetn = true → s.part.sweep = .startUp k → s.part.reports.hold = [] →
      s.part.reports.unread < 512 → Memory.wf s.part.mem →
      ∃ t, exec .startUpSweepEnd s = .next t
        ∧ t = { s with part := { s.part with sweep := .none, units := t.part.units, mem := t.part.mem
                                             port := t.part.port, reports := t.part.reports } }
        ∧ t.part.reports = { s.part.reports with
                              written := s.part.reports.written + 1
                              recent := satInc 512 s.part.reports.recent }
        ∧ t.part.mem.readBytes (s.part.base + ringOffset s.part.reports.written) 64
            = { kind := .started, tick := s.part.tick
                subject := .started .hardReset s.part.base s.part.tkdiv.toNat : Report }.bytes s.part.reports.written
        ∧ (∀ r, (∀ n, r ≠ .screenSet n) → t.part.unit r = s.part.unit r)
        ∧ s.part.keptHostMemory t.part)
  ∧ (∀ (s : State) (k : Nat), s.resetn = true → s.part.sweep = .restart k → s.part.reports.hold = [] →
      s.part.reports.unread < 512 → Memory.wf s.part.mem →
      ∃ t, exec .restartSweepEnd s = .next t
        ∧ t = { s with part := { s.part with sweep := .none, units := t.part.units, mem := t.part.mem
                                             port := t.part.port, reports := t.part.reports
                                             freeReads := t.part.freeReads } }
        ∧ t.part.reports = { s.part.reports with
                              written := s.part.reports.written + 1
                              recent := satInc 512 s.part.reports.recent }
        ∧ t.part.mem.readBytes (s.part.base + ringOffset s.part.reports.written) 64
            = { kind := .started, tick := s.part.tick
                subject := .started .restart s.part.base s.part.tkdiv.toNat : Report }.bytes s.part.reports.written
        ∧ (∃ detail, t.part.unit .header
            = { s.part.unit .header with
                stage := .unlocked
                result := { tag := (s.part.unit .header).tag, code := .done, detail := detail } })
        ∧ s.part.keptHostMemory t.part)

/-! ## Time (9.4, 2.5, 2.7, 6.6) -/

/-- The tick counter advances by one and wraps from 4 294 967 295 to 0 (R183); nothing else moves. -/
def Obligations.Tick : Prop :=
  ∀ s : State, s.resetn = true →
    exec .tick s = .next { s with part := { s.part with tick := s.part.tick + 1 } }

/-- The directory's timers. The gap timer of a FILLING slot reaches its deadline (R38): STALLED, the timer stopped,
PAGE_STALLED with the state of every entry. A WAITING orphan reaches its expiry tick (R41): it leaves the queue
with ORPHAN_DROPPED, cause EXPIRED. Nothing else. That stall and timer stop share one mirror write, so that the change
number advances by one, is log 14 (DEDUCED, unsafe). -/
def Obligations.DirectoryTimersExpire : Prop :=
  (∀ (s : State) (n : Fin 512) (d : Word), s.resetn = true → s.part.slots[n].state = .filling →
      s.part.slots[n].deadline = some d → 0 ≤ (s.part.tick - d).toInt →
      ∃ t, exec (.gapTimerExpiry n) s = .next t
        ∧ t.part.slots = s.part.slots.set n
            { s.part.slots[n] with state := .stalled, deadline := none, change := s.part.slots[n].change + 1 }
        ∧ t.part.reports
            = s.part.after .pageStalled (.stalled (s.part.slots[n].form n) s.part.slots[n].stateCodes)
        ∧ t = { s with part := { s.part with slots := t.part.slots, reports := t.part.reports, mem := t.part.mem
                                             port := t.part.port } }
        ∧ s.part.keptOutside t.part (mirrorRange n :: s.part.reportRanges))
  ∧ (∀ (s : State) (i : Nat) (o : Orphan), s.resetn = true → s.part.orphans[i]? = some o → o.binding = none →
      0 ≤ (s.part.tick - o.expiry).toInt →
      ∃ t, exec (.orphanExpiry i) s = .next t
        ∧ t.part.orphans = s.part.orphans.eraseIdx i
        ∧ t.part.reports = s.part.after .orphanDropped
            (.page { edition := o.id.edition, zone := o.id.zone, sep := o.id.sep, page := o.id.page
                     version := o.version, kind := o.kind.code, index := o.index % 256, stream := o.stream.val
                     cause := 2, a := o.tick.toNat })
        ∧ t = { s with part := { s.part with orphans := t.part.orphans, reports := t.part.reports, mem := t.part.mem
                                             port := t.part.port } }
        ∧ s.part.keptOutside t.part s.part.reportRanges)

/-- The arm deadline of a plate is reached (R115). READY, QUEUED or EXPOSING: its flag is set, and nothing else
changes but its status record in memory; of plates with equal deadlines the lowest-numbered one is taken first. WAITING with action
FAIL, while both READY lists are empty, so that no other plate moves: it becomes FAILED with cause DEADLINE and its pins
are released. -/
def Obligations.ArmDeadlinePasses : Prop :=
  (∀ (s : State) (n : Fin 64), s.resetn = true →
      s.part.plates[n].state = .ready ∨ s.part.plates[n].state = .queued ∨ s.part.plates[n].state = .exposing →
      s.part.plates[n].copy.deadline ≠ 0 → s.part.plates[n].deadlinePassed = false →
      0 ≤ (s.part.tick - s.part.plates[n].copy.deadline).toInt →
      (∀ m : Fin 64, m < n → s.part.plates[m].copy.deadline = s.part.plates[n].copy.deadline →
        s.part.plates[m].state.armed = false ∨ s.part.plates[m].deadlinePassed = true) →
      ∃ t, exec (.armDeadline n) s = .next t
        ∧ t.part.plates = s.part.plates.set n { s.part.plates[n] with deadlinePassed := true }
        ∧ t = { s with part := { s.part with plates := t.part.plates, mem := t.part.mem, port := t.part.port } }
        ∧ s.part.keptOutside t.part [plateRange n])
  ∧ (∀ (s : State) (n : Fin 64), s.resetn = true → s.part.plates[n].state = .waiting →
      s.part.plates[n].copy.action = .fail → s.part.plates[n].copy.deadline ≠ 0 →
      s.part.plates[n].deadlinePassed = false → 0 ≤ (s.part.tick - s.part.plates[n].copy.deadline).toInt →
      (∀ m : Fin 64, m < n → s.part.plates[m].state.armed = false) →
      (∀ k : Fin 2, s.part.channels[k].ready = []) →
      ∃ t, exec (.armDeadline n) s = .next t
        ∧ t.part.plates[n].state = .failed ∧ t.part.plates[n].cause = .deadline
        ∧ t.part.plates[n].deadlinePassed = true ∧ t.part.plates[n].copy = s.part.plates[n].copy
        ∧ (∀ k : Fin 4, t.part.plates[n].res[k].pinned = false)
        ∧ (∀ m : Fin 64, m ≠ n → t.part.plates[m] = s.part.plates[m])
        ∧ t.part.params = s.part.params ∧ t.part.units = s.part.units ∧ t.part.windows = s.part.windows
        ∧ t.part.filters = s.part.filters ∧ t.part.parsers = s.part.parsers ∧ t.part.transit = s.part.transit
        ∧ t.part.sets = s.part.sets ∧ t.part.owners = s.part.owners ∧ t.tiles = s.tiles ∧ t.xfers = s.xfers
        ∧ s.part.keptHostMemory t.part)

/-! ## The memory path (9.1, 9.2, 9.4) -/

/-- Writes that are forwarded and nothing else (R167, R177): a block of ordinary memory or of an unwatched line, and a
block of an unlocked record that is no command. Memory takes the strobed bytes, the transaction the block. No extent
meets the block, so that the trample monitor leaves it (R149). -/
def Obligations.WritesAreForwarded : Prop :=
  (∀ (w : WriteBlock) (s : State), s.resetn = true → w.addr.toNat % 64 = 0 →
      s.part.classify w.addr.toNat = .memory ∨ s.part.classify w.addr.toNat = .control .unwatched →
      s.part.unwatched w.addr.toNat → Memory.wf s.part.mem →
      ∃ t, exec (.upstreamWriteBlock w) s = .next t
        ∧ t = { s with
                part := { s.part with mem := t.part.mem, port := { s.part.port with lastGrant := .passing } }
                xfers := addBlock s.xfers w.source false w.addr.toNat .forwarded w.last }
        ∧ (∀ k : Fin 64, t.part.mem.read (w.addr.toNat + k)
            = if w.strobes.getLsbD k then w.data[k] else s.part.mem.read (w.addr.toNat + k))
        ∧ ∀ a, a < w.addr.toNat ∨ w.addr.toNat + 64 ≤ a → t.part.mem.read a = s.part.mem.read a)
  ∧ (∀ (w : WriteBlock) (r : RecordId) (b : Nat) (s : State), s.resetn = true → w.addr.toNat % 64 = 0 →
      s.part.classify w.addr.toNat = .control (.record r b) → (s.part.unit r).stage = .unlocked →
      (b ≠ 0 ∨ w.strobes.getLsbD 0 = false ∨ w.data[0] = 0) → s.part.unwatched w.addr.toNat → Memory.wf s.part.mem →
      ∃ t, exec (.bodyWrite w) s = .next t
        ∧ t = { s with
                part := { s.part with mem := t.part.mem, port := { s.part.port with lastGrant := .passing } }
                xfers := addBlock s.xfers w.source false w.addr.toNat .forwarded w.last }
        ∧ (∀ k : Fin 64, t.part.mem.read (w.addr.toNat + k)
            = if w.strobes.getLsbD k then w.data[k] else s.part.mem.read (w.addr.toNat + k))
        ∧ ∀ a, a < w.addr.toNat ∨ w.addr.toNat + 64 ≤ a → t.part.mem.read a = s.part.mem.read a)

/-- Writes that the part refuses (R167, R176, R178, R180): a part-owned line, a plate window, a block of a locked
record, a command during the start-up sweep. Nothing changes but the transaction, which will be answered REFUSED. -/
def Obligations.RefusedWritesChangeNothing : Prop :=
  ∀ (w : WriteBlock) (s : State), s.resetn = true → w.addr.toNat % 64 = 0 →
    (s.part.classify w.addr.toNat = .control .partOwned
      ∨ (∃ n, s.part.classify w.addr.toNat = .plate n)
      ∨ ∃ r b, s.part.classify w.addr.toNat = .control (.record r b)
          ∧ ((s.part.unit r).stage ≠ .unlocked
            ∨ (b = 0 ∧ w.strobes.getLsbD 0 = true ∧ w.data[0] ≠ 0 ∧ ∃ k, s.part.sweep = .startUp k))) →
    exec (.upstreamWriteBlock w) s
        = .next { s with xfers := addBlock s.xfers w.source false w.addr.toNat .refused w.last }
      ∧ exec (.bodyWrite w) s
        = .next { s with xfers := addBlock s.xfers w.source false w.addr.toNat .refused w.last }

/-- A write of block 0 of an unlocked record with byte 0 strobed and other than 0 is a command (R177): the block is
forwarded, the record is locked, and its internal copy is the record as memory holds it after the write; that read is
the port's last grant (R170). A command taken during a plant restart is barred from acting (R180). -/
def Obligations.CommandWriteLocksTheRecord : Prop :=
  ∀ (w : WriteBlock) (r : RecordId) (s : State), s.resetn = true → w.addr.toNat % 64 = 0 →
    s.part.classify w.addr.toNat = .control (.record r 0) → (s.part.unit r).stage = .unlocked →
    w.strobes.getLsbD 0 = true → w.data[0] ≠ 0 → (∀ k, s.part.sweep ≠ .startUp k) →
    s.part.unwatched w.addr.toNat → Memory.wf s.part.mem →
    ∃ t, exec (.upstreamWriteBlock w) s = .next t
      ∧ t = { s with
              part := { s.part with mem := t.part.mem, port := { s.part.port with lastGrant := .own }
                                    units := t.part.units }
              xfers := addBlock s.xfers w.source false w.addr.toNat .forwarded w.last }
      ∧ t.part.unit r = { s.part.unit r with
                          stage := if s.part.restarting then .barred else .taken
                          copy := t.part.mem.readBytes (s.part.base + r.offset) r.size }
      ∧ (∀ r', r' ≠ r → t.part.unit r' = s.part.unit r')
      ∧ (∀ k : Fin 64, t.part.mem.read (w.addr.toNat + k)
          = if w.strobes.getLsbD k then w.data[k] else s.part.mem.read (w.addr.toNat + k))
      ∧ ∀ a, a < w.addr.toNat ∨ w.addr.toNat + 64 ≤ a → t.part.mem.read a = s.part.mem.read a

/-- A read block outside the plate windows is answered from memory (R167, R168). -/
def Obligations.ReadIsAnsweredFromMemory : Prop :=
  ∀ (r : ReadBlock) (s : State), s.resetn = true → r.addr.toNat % 64 = 0 →
    (∀ n, s.part.classify r.addr.toNat ≠ .plate n) → r.returned = [] →
    exec (.upstreamReadBlock r) s = .next
      { s with
        part := { s.part with port := { s.part.port with lastGrant := .passing } }
        xfers := addBlock s.xfers r.source true r.addr.toNat (.data (s.part.mem.readBytes r.addr.toNat 64)) r.last }

/-- The oldest transaction of a source is answered as a whole when all its blocks are taken and settled (R168, R169):
REFUSED if any block was refused, else OKAY, a read with its data. One that is not ready keeps waiting (log 3). -/
def Obligations.TransactionIsAnswered : Prop :=
  ∀ (k : Fin 16) (before after : List Xfer) (x : Xfer) (s : State), s.resetn = true →
    s.xfers = before ++ x :: after → (∀ y ∈ before, y.source ≠ k) → x.source = k →
    ((x.closed = true ∧ ∀ o ∈ x.blocks, ∀ c, o ≠ .composing c) →
      ∃ t, exec (.transactionResponse k) s = .next t
        ∧ t = { s with xfers := before ++ after, answer := t.answer }
        ∧ ∃ a, t.answer = some a ∧ a.source = k ∧ a.isRead = x.isRead
          ∧ (a.refused = true ↔ BlockOutcome.refused ∈ x.blocks)
          ∧ (x.isRead = true → a.data = x.blocks.map BlockOutcome.bytes))
    ∧ ((x.closed = false ∨ ∃ c, BlockOutcome.composing c ∈ x.blocks) →
      exec (.transactionResponse k) s = .next s)

/-- A write of the read-count block with its four bytes strobed (R190), no loss waiting: the read count becomes the
value written, or the written count where the value lies ahead of it, or the written count less the records still in
the ring where it lies too far back. No byte of memory changes outside the block and the status header. A
write that leaves one of the four bytes unstrobed changes nothing in the report unit. -/
def Obligations.ReadCountIsTaken : Prop :=
  (∀ (k : Fin 16) (data : Vector Byte 64) (strobes : BitVec 64) (last : Bool) (s : State) (v : Word),
      s.resetn = true → strobes.extractLsb' 0 4 = BitVec.allOnes 4 → v = data[3] ++ data[2] ++ data[1] ++ data[0] →
      s.part.unwatched (s.part.base + 0x40) → s.part.reports.lost = 0 → s.part.reports.saturated = false →
      ∃ t, exec (.readCountWrite k data strobes last) s = .next t
        ∧ t = { s with
                part := { s.part with reports := { s.part.reports with read := t.part.reports.read }
                                      mem := t.part.mem, port := t.part.port }
                xfers := addBlock s.xfers k false (s.part.base + 0x40) .forwarded last }
        ∧ (0 < (v - s.part.reports.written).toInt → t.part.reports.read = s.part.reports.written)
        ∧ ((v - s.part.reports.written).toInt ≤ 0 → s.part.reports.recent < (s.part.reports.written - v).toNat →
            t.part.reports.read = s.part.reports.written - BitVec.ofNat 32 s.part.reports.recent)
        ∧ ((v - s.part.reports.written).toInt ≤ 0 → (s.part.reports.written - v).toNat ≤ s.part.reports.recent →
            t.part.reports.read = v)
        ∧ s.part.keptOutside t.part [(0x40, 64), headerRange])
  ∧ (∀ (k : Fin 16) (data : Vector Byte 64) (strobes : BitVec 64) (last : Bool) (s : State), s.resetn = true →
      strobes.extractLsb' 0 4 ≠ BitVec.allOnes 4 → s.part.unwatched (s.part.base + 0x40) →
      ∃ t, exec (.readCountWrite k data strobes last) s = .next t
        ∧ t = { s with
                part := { s.part with mem := t.part.mem, port := { s.part.port with lastGrant := .passing } }
                xfers := addBlock s.xfers k false (s.part.base + 0x40) .forwarded last }
        ∧ s.part.keptOutside t.part [(0x40, 64)])

/-- The LOST record (R192): at the read-count write that gives room while losses wait, LOST is written with the lost
count, the saturated mark and the two ticks, and the lost count and the mark are cleared. -/
def Obligations.LostRecordIsWritten : Prop :=
  ∀ (k : Fin 16) (data : Vector Byte 64) (strobes : BitVec 64) (last : Bool) (s : State) (v : Word),
    s.resetn = true → strobes.extractLsb' 0 4 = BitVec.allOnes 4 → v = data[3] ++ data[2] ++ data[1] ++ data[0] →
    s.part.unwatched (s.part.base + 0x40) → 0 < s.part.reports.lost → s.part.sweep = .none →
    (s.part.reports.written - v).toNat < 512 → (s.part.reports.written - v).toNat ≤ s.part.reports.recent →
    Memory.wf s.part.mem →
    ∃ t, exec (.readCountWrite k data strobes last) s = .next t
      ∧ t.part.reports = { s.part.reports with
                            read := v
                            written := s.part.reports.written + 1
                            recent := satInc 512 s.part.reports.recent
                            lost := 0
                            saturated := false }
      ∧ t.part.mem.readBytes (s.part.base + ringOffset s.part.reports.written) 64
          = { kind := .lost, tick := s.part.tick
              subject := .lost s.part.reports.lost s.part.reports.saturated s.part.reports.firstLoss
                s.part.reports.lastLoss : Report }.bytes s.part.reports.written
      ∧ s.part.keptOutside t.part ((0x40, 64) :: s.part.reportRanges)

/-- The memory controller answers the oldest status-header rewrite: the posted count becomes the written count that the
rewrite showed (R195). R169 orders own writes by their issue; that the own writes before the rewrite are answered with
it is the model's choice, log 8.
KINT is asserted while the interrupt enable is other than 0 and the signed difference of posted and read count is above
0, deasserted otherwise. -/
def Obligations.StatusHeaderIsPosted : Prop :=
  (∀ (s : State) (before after : List OwnWrite) (n : Word), s.resetn = true →
      s.part.port.own = before ++ .statusHeader n :: after → (∀ w ∈ before, ∀ m, w ≠ .statusHeader m) →
      exec .statusHeaderPosted s = .next
        { s with part := { s.part with port := { s.part.port with own := after }
                                       reports := { s.part.reports with posted := n } } })
  ∧ (∀ (s : State), s.part.kint = true ↔
      s.part.params.enable ≠ 0 ∧ 0 < (s.part.reports.posted - s.part.reports.read).toInt)

/-! ## Reports (chapter 10) -/

/-- A report is taken by the first case that applies (R189, R191, R193, R196): dropped where its class is suppressed;
held before STARTED, lost where 511 are held; lost where 512 are unread; else written to ring entry (written count mod
512) with the written count as its number. Nothing else changes. -/
def Obligations.ReportIsTaken : Prop :=
  ∀ (s : State) (r : Report),
    let p := s.part
    let q := p.takeReport r
    (p.params.suppressed r.kind.cls = true → q = p)
    ∧ (p.params.suppressed r.kind.cls = false → p.sweep ≠ .none → p.reports.hold.length < 511 →
        q = { p with reports := { p.reports with hold := p.reports.hold ++ [r] } })
    ∧ (p.params.suppressed r.kind.cls = false →
        (p.sweep ≠ .none ∧ 511 ≤ p.reports.hold.length) ∨ (p.sweep = .none ∧ 512 ≤ p.reports.unread) →
        q = { p with reports := { p.reports with
                       firstLoss := if p.reports.lost = 0 then p.tick else p.reports.firstLoss
                       lastLoss := p.tick
                       lost := if p.reports.lost < 65535 then p.reports.lost + 1 else p.reports.lost
                       saturated := p.reports.saturated || p.reports.lost == 65535 }
                     mem := q.mem, port := q.port }
          ∧ p.keptOutside q [headerRange])
    ∧ (p.params.suppressed r.kind.cls = false → p.sweep = .none → p.reports.unread < 512 →
        q = { p with reports := { p.reports with
                       written := p.reports.written + 1, recent := satInc 512 p.reports.recent }
                     mem := q.mem, port := q.port }
          ∧ (Memory.wf p.mem →
              q.mem.readBytes (p.base + 0x10000 + 64 * (p.reports.written.toNat % 512)) 64
                = r.bytes p.reports.written)
          ∧ p.keptOutside q p.reportRanges)

/-! ## Parcel intake (chapter 1) -/

/-- The header fault is the first test of R2 that fails. -/
def Obligations.HeaderTests : Prop :=
  ∀ (bs : List Byte) (strobes : BitVec 64),
    let full := strobes = BitVec.allOnes 64
    let marked := bs.take 4 = [0xA7, 0x5C, 0x3E, 0x91]
    let checked := (crc32 (bs.take 60)).toNat = beField bs 60 4
    let short := beField bs 20 4 ≤ 1048576
    (headerFault bs strobes = none ↔ full ∧ marked ∧ checked ∧ short)
    ∧ (headerFault bs strobes = some .partialStrobe ↔ ¬ full)
    ∧ (headerFault bs strobes = some .marker ↔ full ∧ ¬ marked)
    ∧ (headerFault bs strobes = some .headerCrc ↔ full ∧ marked ∧ ¬ checked)
    ∧ (headerFault bs strobes = some .length ↔ full ∧ marked ∧ checked ∧ ¬ short)

/-- The sequence check (R13): unset or equal, no report; 1 to 2^31 - 1 ahead, a gap of d numbers from x; else a late
retransmission, counted, with the expected sequence kept. -/
def Obligations.SequenceCheck : Prop :=
  ∀ (x : Parser) (s : Word),
    (x.sequence = none → sequenceCheck x.sequence s = .inOrder
      ∧ x.checkSequence s = { x with sequence := some (s + 1) })
    ∧ (∀ e, x.sequence = some e → (s - e).toNat = 0 → sequenceCheck x.sequence s = .inOrder
      ∧ x.checkSequence s = { x with sequence := some (s + 1) })
    ∧ (∀ e, x.sequence = some e → 1 ≤ (s - e).toNat → (s - e).toNat < 2 ^ 31 →
      sequenceCheck x.sequence s = .gap e (s - e) ∧ x.checkSequence s = { x with sequence := some (s + 1) })
    ∧ (∀ e, x.sequence = some e → 2 ^ 31 ≤ (s - e).toNat →
      sequenceCheck x.sequence s = .late ∧ x.checkSequence s = { x with late := satInc 4294967295 x.late })

/-- An entry matches a header (R14): edition and zone agree in every bit of their masks, the page lies in the range,
the separation's flag is set. A mask of 0 matches any value; an empty separation set matches no header. -/
def Obligations.FilterMatches : Prop :=
  ∀ (f : FilterEntry) (h : Header),
    (f.matches_ h = true ↔
      (∀ i, f.editionMask.testBit i = true → h.edition.testBit i = f.edition.testBit i)
      ∧ (∀ i, f.zoneMask.testBit i = true → h.zone.testBit i = f.zone.testBit i)
      ∧ (f.pageLow ≤ h.page ∧ h.page ≤ f.pageHigh) ∧ f.seps.getLsbD h.sep = true)
    ∧ (∀ e, f.editionMask = 0 → f.matches_ h = { f with edition := e }.matches_ h)
    ∧ (∀ z, f.zoneMask = 0 → f.matches_ h = { f with zone := z }.matches_ h)
    ∧ (f.seps = 0 → f.matches_ h = false)

/-- The filter decides by the lowest enabled entry that matches, and counts its hit; by the default action with hit
number 16 where none matches (R15). -/
def Obligations.FilterDecides : Prop :=
  (∀ (s : State) (h : Header),
      (∀ i : Fin 16, s.part.filters[i].enable = true → s.part.filters[i].matches_ h = true →
        (∀ j : Fin 16, j < i → s.part.filters[j].enable = false ∨ s.part.filters[j].matches_ h = false) →
        (s.part.filterDecide h).2
            = (if s.part.filters[i].action = .accept then Decision.accept i.val else Decision.reject i.val)
          ∧ (s.part.filterDecide h).1.filters = s.part.filters.set i
              { s.part.filters[i] with hits := satInc 4294967295 s.part.filters[i].hits })
      ∧ ((∀ i : Fin 16, s.part.filters[i].enable = false ∨ s.part.filters[i].matches_ h = false) →
        s.part.filterDecide h
          = (s.part, if s.part.params.defaultAction = .accept then Decision.accept 16 else Decision.reject 16)))

/-- A block of an intake window taken in SEEK or HUNT. A valid header starts a parcel (R4, R5, R6): the parser follows its
payload from the successor of the header block; found away from E, or in HUNT, it counts a resync. The filter's hit
count and a gap's report are all that changes beside it. A block that is no valid header (R4, R5): at E of a parser in
SEEK the parser goes to HUNT and HEADER_BAD is raised; else a stray write is counted and no report raised. -/
def Obligations.HeaderStartsAParcel : Prop :=
  (∀ (w : WriteBlock) (n : Fin 16) (k : Fin 4) (s : State) (i : Nat) (h : Header), s.resetn = true →
      w.addr.toNat % 64 = 0 → s.part.classify w.addr.toNat = .intake n → s.part.windows[n].stream = k →
      s.part.unwatched w.addr.toNat → s.part.parsers[k].state = .seek ∨ s.part.parsers[k].state = .hunt →
      i = (w.addr.toNat - s.part.windows[n].base) / 64 → headerFault w.data.toList w.strobes = none →
      h = parseHeader w.data.toList i → h.length ≠ 0 →
      ∃ t, exec (.upstreamWriteBlock w) s = .next t
        ∧ t.part.parsers[k].state = .payload
        ∧ t.part.parsers[k].expected = (i + 1) % (s.part.windows[n].size / 64)
        ∧ t.part.parsers[k].remaining = h.length ∧ t.part.parsers[k].crc = 0xFFFFFFFF
        ∧ t.part.parsers[k].header = some h
        ∧ t.part.parsers[k].fieldFault = h.fieldFault (s.part.windows[n].size / 64)
        ∧ t.part.parsers[k].capture = []
        ∧ t.part.parsers[k].sequence = (s.part.parsers[k].checkSequence h.sequence).sequence
        ∧ t.part.parsers[k].resyncs
            = (if s.part.parsers[k].state = .seek ∧ i = s.part.parsers[k].expected then s.part.parsers[k].resyncs
              else satInc 4294967295 s.part.parsers[k].resyncs)
        ∧ t.part.parsers[k].strays = s.part.parsers[k].strays ∧ t.part.parsers[k].filed = s.part.parsers[k].filed
        ∧ t.part.parsers[k].rejected = s.part.parsers[k].rejected
        ∧ (∀ j : Fin 4, j ≠ k → t.part.parsers[j] = s.part.parsers[j])
        ∧ t = { s with
                part := { s.part with parsers := t.part.parsers, filters := t.part.filters
                                      reports := t.part.reports, mem := t.part.mem, port := t.part.port }
                xfers := addBlock s.xfers w.source false w.addr.toNat .forwarded w.last }
        ∧ ∀ a, a < w.addr.toNat ∨ w.addr.toNat + 64 ≤ a → ¬ s.part.ownedAt a →
            t.part.mem.read a = s.part.mem.read a)
  ∧ (∀ (w : WriteBlock) (n : Fin 16) (k : Fin 4) (s : State) (i : Nat) (fault : HeaderFault), s.resetn = true →
      w.addr.toNat % 64 = 0 → s.part.classify w.addr.toNat = .intake n → s.part.windows[n].stream = k →
      s.part.unwatched w.addr.toNat → s.part.parsers[k].state = .seek ∨ s.part.parsers[k].state = .hunt →
      i = (w.addr.toNat - s.part.windows[n].base) / 64 → headerFault w.data.toList w.strobes = some fault →
      let bad := s.part.parsers[k].state = .seek ∧ i = s.part.parsers[k].expected
      ∃ t, exec (.upstreamWriteBlock w) s = .next t
        ∧ (bad → t.part.parsers = s.part.parsers.set k { s.part.parsers[k] with state := .hunt }
            ∧ s.part.tells t.part .headerBad
                (.page { stream := k.val, cause := fault.code, addr := w.addr.toNat, flags := 1 }))
        ∧ (¬ bad → t.part.parsers = s.part.parsers.set k
              { s.part.parsers[k] with strays := satInc 4294967295 s.part.parsers[k].strays }
            ∧ t.part.reports = s.part.reports)
        ∧ t = { s with
                part := { s.part with parsers := t.part.parsers, reports := t.part.reports, mem := t.part.mem
                                      port := t.part.port }
                xfers := addBlock s.xfers w.source false w.addr.toNat .forwarded w.last }
        ∧ ∀ a, a < w.addr.toNat ∨ w.addr.toNat + 64 ≤ a → ¬ s.part.ownedAt a →
            t.part.mem.read a = s.part.mem.read a)

/-- A block taken in PAYLOAD. A full block at E that does not end the parcel is consumed (R7): 64 bytes into the running
CRC, E to its successor; no status is rewritten. A block away from E, or with a strobe missing, breaks the parcel
(R8): PARCEL_BROKEN is raised with what was consumed and what remained, and the block is examined as in HUNT: no
valid header, it is a stray write and the parser is in HUNT; a valid header starts a parcel and counts a resync. -/
def Obligations.PayloadBlockIsConsumed : Prop :=
  (∀ (w : WriteBlock) (n : Fin 16) (k : Fin 4) (s : State), s.resetn = true → w.addr.toNat % 64 = 0 →
      s.part.classify w.addr.toNat = .intake n → s.part.windows[n].stream = k → s.part.unwatched w.addr.toNat →
      s.part.parsers[k].state = .payload →
      (w.addr.toNat - s.part.windows[n].base) / 64 = s.part.parsers[k].expected → w.strobes = BitVec.allOnes 64 →
      64 < s.part.parsers[k].remaining →
      ∃ t, exec (.upstreamWriteBlock w) s = .next t
        ∧ t.part.parsers = s.part.parsers.set k
            { s.part.parsers[k] with
              crc := crcRun s.part.parsers[k].crc w.data.toList
              remaining := s.part.parsers[k].remaining - 64
              expected := (s.part.parsers[k].expected + 1) % (s.part.windows[n].size / 64)
              verdict := t.part.parsers[k].verdict
              validator := t.part.parsers[k].validator
              capture := t.part.parsers[k].capture }
        ∧ t = { s with
                part := { s.part with parsers := t.part.parsers, mem := t.part.mem
                                      port := { s.part.port with lastGrant := .passing } }
                xfers := addBlock s.xfers w.source false w.addr.toNat .forwarded w.last }
        ∧ ∀ a, a < w.addr.toNat ∨ w.addr.toNat + 64 ≤ a → t.part.mem.read a = s.part.mem.read a)
  ∧ (∀ (w : WriteBlock) (n : Fin 16) (k : Fin 4) (s : State) (i : Nat) (h : Header), s.resetn = true →
      w.addr.toNat % 64 = 0 → s.part.classify w.addr.toNat = .intake n → s.part.windows[n].stream = k →
      s.part.unwatched w.addr.toNat → s.part.parsers[k].state = .payload → s.part.parsers[k].header = some h →
      i = (w.addr.toNat - s.part.windows[n].base) / 64 →
      i ≠ s.part.parsers[k].expected ∨ w.strobes ≠ BitVec.allOnes 64 →
      let broken : Subject :=
        .page { edition := h.edition, zone := h.zone, sep := h.sep, page := h.page, version := h.version
                kind := h.kind, stream := k.val, cause := if i = s.part.parsers[k].expected then 1 else 2
                flags := 1, a := h.block, b := h.length - s.part.parsers[k].remaining
                c := s.part.parsers[k].remaining, addr := w.addr.toNat }
      (∀ fault, headerFault w.data.toList w.strobes = some fault →
        ∃ t, exec (.upstreamWriteBlock w) s = .next t
          ∧ t.part.parsers = s.part.parsers.set k
              { s.part.parsers[k] with state := .hunt, strays := satInc 4294967295 s.part.parsers[k].strays }
          ∧ s.part.tells t.part .parcelBroken broken
          ∧ t = { s with
                  part := { s.part with parsers := t.part.parsers, reports := t.part.reports, mem := t.part.mem
                                        port := t.part.port }
                  xfers := addBlock s.xfers w.source false w.addr.toNat .forwarded w.last }
          ∧ ∀ a, a < w.addr.toNat ∨ w.addr.toNat + 64 ≤ a → ¬ s.part.ownedAt a →
              t.part.mem.read a = s.part.mem.read a)
      ∧ (headerFault w.data.toList w.strobes = none → (parseHeader w.data.toList i).length ≠ 0 →
        ∃ t, exec (.upstreamWriteBlock w) s = .next t
          ∧ t.part.parsers[k].state = .payload
          ∧ t.part.parsers[k].header = some (parseHeader w.data.toList i)
          ∧ t.part.parsers[k].expected = (i + 1) % (s.part.windows[n].size / 64)
          ∧ t.part.parsers[k].remaining = (parseHeader w.data.toList i).length
          ∧ t.part.parsers[k].resyncs = satInc 4294967295 s.part.parsers[k].resyncs
          ∧ t.part.parsers[k].strays = s.part.parsers[k].strays
          ∧ s.part.records t.part .parcelBroken broken
          ∧ (∀ j : Fin 4, j ≠ k → t.part.parsers[j] = s.part.parsers[j])
          ∧ t = { s with
                  part := { s.part with parsers := t.part.parsers, filters := t.part.filters
                                        reports := t.part.reports, mem := t.part.mem, port := t.part.port }
                  xfers := addBlock s.xfers w.source false w.addr.toNat .forwarded w.last }
          ∧ ∀ a, a < w.addr.toNat ∨ w.addr.toNat + 64 ≤ a → ¬ s.part.ownedAt a →
              t.part.mem.read a = s.part.mem.read a))

/-- The last payload block of a well-formed accepted parcel (R9, R12): the parcel goes to the directory with its
location, computed CRC, hit number and arrival tick, the filed counter counts it and the parser is in SEEK. The verdict
handed over is the parser's: the validator's after the payload's last bytes and the end checks, or, where no validator
runs, the one it had (R11). -/
def Obligations.ParcelFinishes : Prop :=
  ∀ (w : WriteBlock) (n : Fin 16) (k : Fin 4) (s : State) (h : Header) (kind : ParcelKind) (hit : Nat),
    s.resetn = true → w.addr.toNat % 64 = 0 →
    s.part.classify w.addr.toNat = .intake n → s.part.windows[n].stream = k → s.part.unwatched w.addr.toNat →
    s.part.parsers[k].state = .payload →
    (w.addr.toNat - s.part.windows[n].base) / 64 = s.part.parsers[k].expected → w.strobes = BitVec.allOnes 64 →
    0 < s.part.parsers[k].remaining → s.part.parsers[k].remaining ≤ 64 →
    s.part.parsers[k].header = some h → s.part.parsers[k].fieldFault = none → parcelKind? h.kind = some kind →
    s.part.parsers[k].decision = .accept hit →
    ∃ t c, exec (.upstreamWriteBlock w) s = .next t
      ∧ t.part.transit = s.part.transit ++ [c]
      ∧ c.stream = k ∧ c.kind = kind ∧ c.header = h ∧ c.hit = hit ∧ c.tick = s.part.tick ∧ c.mark = none
      ∧ c.slotRef = s.part.parsers[k].slotRef
      ∧ c.loc = { addr := s.part.windows[n].base + 64 * ((h.block + 1) % (s.part.windows[n].size / 64))
                  len := h.length, base := s.part.windows[n].base, size := s.part.windows[n].size }
      ∧ c.computedCrc
          = ~~~ crcRun s.part.parsers[k].crc (w.data.toList.take s.part.parsers[k].remaining)
      ∧ c.verdict = t.part.parsers[k].verdict
      ∧ (s.part.parsers[k].validator = none → c.verdict = s.part.parsers[k].verdict)
      ∧ (∀ v, s.part.parsers[k].validator = some v →
          c.verdict = ((v.feedAll (w.data.toList.take s.part.parsers[k].remaining)).finish).verdict)
      ∧ t.part.parsers[k].state = .seek
      ∧ t.part.parsers[k].filed = satInc 4294967295 s.part.parsers[k].filed
      ∧ (∀ j : Fin 4, j ≠ k → t.part.parsers[j] = s.part.parsers[j])
      ∧ t = { s with
              part := { s.part with parsers := t.part.parsers, transit := t.part.transit, mem := t.part.mem
                                    port := t.part.port }
              xfers := addBlock s.xfers w.source false w.addr.toNat .forwarded w.last }
      ∧ ∀ a, a < w.addr.toNat ∨ w.addr.toNat + 64 ≤ a → a < s.part.base + 0x100 ∨ s.part.base + 0x200 ≤ a →
          t.part.mem.read a = s.part.mem.read a

/-! ## The page directory (chapter 2) -/

/-- A valid HEAD of a page version newer than every in-use slot of its identity, with no current slot (R27, R29, R30):
the lowest FREE slot is opened, FILLING, with its gap timer running, and PAGE_OPENED is raised. No orphan waits and no
plate is armed, so that nothing follows. That the opening and the timer's start share one mirror write, so that the
change number advances by one, is log 14 (DEDUCED, unsafe). -/
def Obligations.HeadOpensTheLowestFreeSlot : Prop :=
  ∀ (s : State) (k : Fin 4) (before after : List Parcel) (c : Parcel) (n : Fin 512), s.resetn = true →
    s.part.nextIs k before c after → c.kind = .head → c.validHead →
    s.part.newerThanAll c.header.id c.header.version →
    (∀ m : Fin 512, s.part.slots[m].current = true → s.part.slots[m].id ≠ c.header.id) →
    s.part.slots[n].state = .free → (∀ m : Fin 512, m < n → s.part.slots[m].state ≠ .free) →
    s.part.orphans = [] → s.part.noPlates →
    ∃ t, exec (.fileHead k) s = .next t
      ∧ t.part.transit = before ++ after
      ∧ t.part.slots = s.part.slots.set n
          { state := .filling, id := c.header.id, version := c.header.version
            alloc := s.part.slots[n].alloc + 1, change := s.part.slots[n].change + 1, filterHit := c.hit
            geom := headGeometry c.header c.capture
            deadline := some (s.part.tick + BitVec.ofNat 32 s.part.params.gapMs) }
      ∧ t.part.reports = s.part.after .pageOpened
          (.page { edition := c.header.edition, zone := c.header.zone, sep := c.header.sep, page := c.header.page
                   version := c.header.version, slot := n.val, flags := 8
                   a := c.header.bandCount, b := c.header.toneCount })
      ∧ t = { s with part := { s.part with transit := t.part.transit, slots := t.part.slots
                                           reports := t.part.reports, mem := t.part.mem, port := t.part.port } }
      ∧ s.part.keptOutside t.part (mirrorRange n :: s.part.reportRanges)

/-- A valid HEAD of a newer page version whose identity has a current slot (R29, R30): the lowest FREE slot is opened,
FILLING; the old slot becomes SUPERSEDED and stays while it is pinned; with no pin it is freed at once, its allocation
number kept (R39). No orphan waits. With no plate armed that is all; the exact change numbers (supersession and timer
stop in one mirror write) rest on log 14 (DEDUCED, unsafe). A WAITING or QUEUED plate whose placement follows the
newest version is repinned to the new slot (R118): the pins move, the repin count counts it and the plate is WAITING,
its forced flag cleared where it was QUEUED. An EXPOSING plate does not change, and REMAKE_AFTER_START is raised (R119),
after PAGE_OPENED and PAGE_SUPERSEDED. -/
def Obligations.HeadSupersedesTheCurrentSlot : Prop :=
  (∀ (s : State) (k : Fin 4) (before after : List Parcel) (c : Parcel) (n m : Fin 512), s.resetn = true →
      s.part.supersedes k before c after n m → s.part.noPlates →
      ∃ t, exec (.fileHead k) s = .next t
        ∧ t.part.transit = before ++ after
        ∧ t.part.slots[n].state = .filling ∧ t.part.slots[n].id = c.header.id
        ∧ t.part.slots[n].version = c.header.version ∧ t.part.slots[n].alloc = s.part.slots[n].alloc + 1
        ∧ (s.part.slots[m].pins ≠ 0 → t.part.slots[m]
            = { s.part.slots[m] with state := .superseded, deadline := none, change := s.part.slots[m].change + 1 })
        ∧ (s.part.slots[m].pins = 0 → t.part.slots[m]
            = { alloc := s.part.slots[m].alloc, change := s.part.slots[m].change + 1 + 1 })
        ∧ (∀ j : Fin 512, j ≠ n → j ≠ m → t.part.slots[j] = s.part.slots[j])
        ∧ t = { s with part := { s.part with transit := t.part.transit, slots := t.part.slots
                                             reports := t.part.reports, mem := t.part.mem, port := t.part.port } }
        ∧ s.part.keptOutside t.part [mirrorRange n, mirrorRange m, (Config.offReportRing, 32768), headerRange])
  ∧ (∀ (s : State) (k : Fin 4) (before after : List Parcel) (c : Parcel) (n m : Fin 512) (i : Fin 64) (q : Placement),
      s.resetn = true → s.part.supersedes k before c after n m → s.part.follows i q c.header.id →
      s.part.plates[i].state = .waiting ∨ s.part.plates[i].state = .queued → s.part.plates[i].deadlinePassed = false →
      q.frameW = c.header.index → q.frameH = c.header.height →
      s.part.plates[i].res[(0 : Fin 4)].pinned = true → s.part.plates[i].res[(0 : Fin 4)].slot = m →
      0 < s.part.slots[m].pins →
      ∃ t, exec (.fileHead k) s = .next t
        ∧ t.part.plates[i].state = .waiting ∧ t.part.plates[i].copy = s.part.plates[i].copy
        ∧ t.part.plates[i].forced
            = (if s.part.plates[i].state = .queued then false else s.part.plates[i].forced)
        ∧ t.part.plates[i].repins = satInc 65535 s.part.plates[i].repins
        ∧ t.part.plates[i].res = s.part.plates[i].res.set 0
            { shown := true, pinned := true, slot := n, alloc := s.part.slots[n].alloc + 1
              version := c.header.version }
        ∧ (∀ j : Fin 64, j ≠ i → t.part.plates[j] = s.part.plates[j])
        ∧ t.part.slots[n].state = .filling ∧ t.part.slots[n].pins = 1
        ∧ (1 < s.part.slots[m].pins →
            t.part.slots[m].state = .superseded ∧ t.part.slots[m].pins = s.part.slots[m].pins - 1)
        ∧ (s.part.slots[m].pins = 1 → t.part.slots[m].state = .free))
  ∧ (∀ (s : State) (k : Fin 4) (before after : List Parcel) (c : Parcel) (n m : Fin 512) (i : Fin 64) (q : Placement),
      s.resetn = true → s.part.supersedes k before c after n m → s.part.follows i q c.header.id →
      s.part.plates[i].state = .exposing → 0 < s.part.slots[m].pins → s.part.params.suppress = 0 →
      s.part.sweep = .none → s.part.reports.unread + 3 ≤ 512 → Memory.wf s.part.mem →
      let r := s.part.plates[i].res[(0 : Fin 4)]
      ∃ t, exec (.fileHead k) s = .next t
        ∧ t.part.plates = s.part.plates ∧ t.part.channels = s.part.channels
        ∧ t.part.reports.written = s.part.reports.written + 3
        ∧ t.part.mem.readBytes (s.part.base + ringOffset (s.part.reports.written + 2)) 64
            = { kind := .remakeAfterStart, tick := s.part.tick
                subject := .plate
                  { label := s.part.plates[i].copy.label, plate := i.val, placement := 0
                    tail := leBytes 2 c.header.edition ++ leBytes 1 c.header.zone ++ leBytes 1 c.header.sep
                      ++ leBytes 2 c.header.page ++ leBytes 2 (if r.pinned then r.version else 0)
                      ++ leBytes 2 c.header.version } : Report }.bytes (s.part.reports.written + 2))

/-- A BAND copy with a GOOD verdict, filed in a slot that still has another entry that is not GOOD. Its entry is ABSENT
(R31 to R33, R35, R37): GOOD, and the slot is FILLING with its gap timer restarted. Its entry has a failure state (R33):
the copy takes its place and BAND_REPAIRED is raised with the state it had and the repeats counted. The exact change
number (one mirror write for the entry, one for the slot's state with its timer) rests on log 14 (DEDUCED, unsafe). -/
def Obligations.GoodBandIsFiled : Prop :=
  ∀ (s : State) (k : Fin 4) (before after : List Parcel) (c : Parcel) (n : Fin 512) (b other : Fin 64),
    s.resetn = true → s.part.nextIs k before c after → c.kind = .band →
    s.part.versionSlot c.header.id c.header.version = some n →
    s.part.slots[n].state = .filling ∨ s.part.slots[n].state = .stalled →
    c.header.index = b.val → b.val < s.part.slots[n].geom.bandCount →
    other ≠ b → other.val < s.part.slots[n].geom.bandCount → s.part.slots[n].bands[other].state ≠ .good →
    c.mark = none → c.computedCrc = c.header.crc → c.slotRef = some { slot := n, alloc := s.part.slots[n].alloc } →
    c.verdict = .good →
    let old := s.part.slots[n].bands[b]
    let filed := s.part.slots.set n
      { s.part.slots[n] with
        bands := s.part.slots[n].bands.set b
          { state := .good, loc := c.loc, storedCrc := c.header.crc, tick := c.tick, stream := c.stream }
        state := .filling
        deadline := some (s.part.tick + BitVec.ofNat 32 s.part.params.gapMs)
        change := s.part.slots[n].change + 1 + 1 }
    (old.state = .absent →
      ∃ t, exec (.fileBandTone k) s = .next t
        ∧ t.part.transit = before ++ after
        ∧ t.part.slots = filed
        ∧ t = { s with part := { s.part with transit := t.part.transit, slots := t.part.slots, mem := t.part.mem
                                             port := t.part.port } }
        ∧ s.part.keptOutside t.part [mirrorRange n])
    ∧ (old.state ≠ .absent → old.state ≠ .good →
      ∃ t, exec (.fileBandTone k) s = .next t
        ∧ t.part.transit = before ++ after
        ∧ t.part.slots = filed
        ∧ s.part.tells t.part .bandRepaired
            (.page { s.part.slots[n].form n with
              kind := 2, index := b.val, stream := c.stream.val, cause := old.state.code, a := old.repeats
              b := c.tick.toNat })
        ∧ t = { s with part := { s.part with transit := t.part.transit, slots := t.part.slots
                                             reports := t.part.reports, mem := t.part.mem, port := t.part.port } }
        ∧ s.part.keptOutside t.part (mirrorRange n :: s.part.reportRanges))

/-- A BAND copy whose computed CRC differs enters its ABSENT entry as CRC_BAD (R32 to R34): the damage counter of the
separation counts it and BAND_DAMAGED is raised with the entry's data (R159, R162, R163); DAMAGE_RATE follows where a
threshold is set and the new count is a multiple of it (R160). The exact change number (one mirror write for the entry,
one for the slot's state with its timer) rests on log 14 (DEDUCED, unsafe). -/
def Obligations.BadBandIsDamage : Prop :=
  ∀ (s : State) (k sep : Fin 4) (before after : List Parcel) (c : Parcel) (n : Fin 512) (b : Fin 64),
    s.resetn = true → s.part.nextIs k before c after → c.kind = .band →
    s.part.versionSlot c.header.id c.header.version = some n →
    s.part.slots[n].state = .filling ∨ s.part.slots[n].state = .stalled → s.part.slots[n].id.sep = sep.val →
    c.header.index = b.val → b.val < s.part.slots[n].geom.bandCount → s.part.slots[n].bands[b].state = .absent →
    c.mark = none → c.computedCrc ≠ c.header.crc → s.part.reports.damage[sep] < 65535 →
    let count := s.part.reports.damage[sep] + 1
    let rate := s.part.params.threshold ≠ 0 ∧ count % s.part.params.threshold = 0
    let entry : Entry :=
      { state := .crcBad, loc := c.loc, storedCrc := c.header.crc, tick := c.tick, stream := c.stream
        detail := .computed c.computedCrc }
    let counted := { s.part.reports with damage := s.part.reports.damage.set sep count }
    let told := { s.part with reports := counted }.after .bandDamaged
      (.page { s.part.slots[n].form n with
        kind := 2, index := b.val, cause := 1, stream := c.stream.val, flags := 13, a := 1
        b := c.header.crc.toNat, c := c.computedCrc.toNat, d := c.tick.toNat, addr := c.loc.blockAddr 0
        e := count })
    ∃ t, exec (.fileBandTone k) s = .next t
      ∧ t.part.slots = s.part.slots.set n
          { s.part.slots[n] with
            bands := s.part.slots[n].bands.set b entry
            state := .filling
            deadline := some (s.part.tick + BitVec.ofNat 32 s.part.params.gapMs)
            change := s.part.slots[n].change + 1 + 1 }
      ∧ (rate → t.part.reports = { s.part with reports := told }.after .damageRate
          (.page { s.part.slots[n].form n with
            kind := 2, index := b.val, a := count, b := s.part.params.threshold }))
      ∧ (¬ rate → t.part.reports = told)
      ∧ t = { s with part := { s.part with transit := before ++ after, slots := t.part.slots
                                           reports := t.part.reports, mem := t.part.mem, port := t.part.port } }
      ∧ s.part.keptOutside t.part [mirrorRange n, (Config.offReportRing, 32768), headerRange]
      ∧ (¬ rate → s.part.keptOutside t.part (mirrorRange n :: s.part.reportRanges))

/-- A BAND copy enters the orphan queue. One of a page version that no HEAD has opened waits until its expiry tick (R40).
One of a page version that a slot holds, but that was not validated for that slot as it streamed in, is validated late:
it enters ADOPTING, bound to the slot (R32, step 4). -/
def Obligations.OrphanWaitsForItsHead : Prop :=
  ∀ (s : State) (k : Fin 4) (before after : List Parcel) (c : Parcel), s.resetn = true →
    s.part.nextIs k before c after → c.kind = .band → c.mark = none → c.computedCrc = c.header.crc →
    (∀ o ∈ s.part.orphans, ¬ (o.id = c.header.id ∧ o.version = c.header.version ∧ o.kind = c.kind
      ∧ o.index = c.header.index)) →
    s.part.orphans.length < 64 →
    let entry : Orphan :=
      { id := c.header.id, version := c.header.version, kind := c.kind, index := c.header.index, loc := c.loc
        storedCrc := c.header.crc, tick := c.tick, stream := c.stream
        expiry := c.tick + BitVec.ofNat 32 s.part.params.orphanMs }
    (s.part.newerThanAll c.header.id c.header.version → c.header.index < 64 →
      exec (.fileBandTone k) s = .next
        { s with part := { s.part with transit := before ++ after, orphans := s.part.orphans ++ [entry] } })
    ∧ (∀ n : Fin 512, s.part.versionSlot c.header.id c.header.version = some n → c.header.index < 64 →
      c.header.index < s.part.slots[n].geom.bandCount →
      c.slotRef ≠ some { slot := n, alloc := s.part.slots[n].alloc } ∨ c.verdict = .notRun →
      exec (.fileBandTone k) s = .next
        { s with
          part := { s.part with
            transit := before ++ after
            orphans := s.part.orphans ++
              [{ entry with binding := some { ref := { slot := n, alloc := s.part.slots[n].alloc } } }] } })

/-- Adoption of a BAND (R42, R43): the ADOPTING entry nearest to the head begins, its read-back in flight; where that ends
well and no mark was set, the entry leaves the queue and its copy is filed as GOOD. The exact change number (one mirror
write for the entry, one for the slot's state with its timer) rests on log 14 (DEDUCED, unsafe). -/
def Obligations.AdoptionOfABand : Prop :=
  (∀ (s : State) (before after : List Orphan) (o : Orphan) (b : Binding), s.resetn = true →
      s.part.orphans = before ++ o :: after → (∀ x ∈ before, x.binding = none) → o.binding = some b →
      b.begun = false → (∀ x ∈ after, x.inFlight = false ∧ x ≠ o) → o.kind = .band → o.index < 64 →
      o.index < s.part.slots[b.ref.slot].geom.bandCount →
      exec .adoptionStart s = .next
        { s with part := { s.part with
            orphans := before ++ { o with binding := some { b with begun := true } } :: after
            port := { s.part.port with lastGrant := .own } } })
  ∧ (∀ (s : State) (cells : List Host.Cell) (before after : List Orphan) (o : Orphan) (a : Binding) (b other : Fin 64),
      s.resetn = true → s.part.orphans = before ++ o :: after → (∀ x ∈ before, x.inFlight = false) →
      o.binding = some a → a.begun = true → a.mark = none → o.kind = .band → o.index = b.val →
      let n := a.ref.slot
      s.part.slots[n].state = .filling ∨ s.part.slots[n].state = .stalled →
      b.val < s.part.slots[n].geom.bandCount → s.part.slots[n].bands[b].state = .absent →
      other ≠ b → other.val < s.part.slots[n].geom.bandCount → s.part.slots[n].bands[other].state ≠ .good →
      spanVerdict s.part.slots[n].geom.width (s.part.slots[n].geom.lineCount b.val) (s.part.mem.payload cells o.loc)
        = .good →
      ∃ t, exec (.adoptionComplete cells) s = .next t
        ∧ t.part.slots = s.part.slots.set n
            { s.part.slots[n] with
              bands := s.part.slots[n].bands.set b
                { state := .good, loc := o.loc, storedCrc := o.storedCrc, tick := o.tick, stream := o.stream }
              state := .filling
              deadline := some (s.part.tick + BitVec.ofNat 32 s.part.params.gapMs)
              change := s.part.slots[n].change + 1 + 1 }
        ∧ t = { s with part := { s.part with orphans := before ++ after, slots := t.part.slots, mem := t.part.mem
                                             port := t.part.port } }
        ∧ s.part.keptOutside t.part [mirrorRange n])

/-- A write block of ordinary memory, or of an ACTIVE intake window as its ring wraps, that meets the extent of a GOOD band
(R149, R150): the entry is TRAMPLED unless its slot was freed in the same event; it is not GOOD. Where the slot was whole
and the block meets nothing else, a READY or QUEUED plate that holds, was not forced, and has a placement pinned to the
slot is held (R117): WAITING again, its hold count advanced. -/
def Obligations.TrampledBandIsNotGood : Prop :=
  (∀ (w : WriteBlock) (s : State) (n : Fin 512) (b : Fin 64), s.resetn = true → w.addr.toNat % 64 = 0 →
      s.part.openTo w.addr.toNat → s.part.slots[n].inUse = true →
      b.val < s.part.slots[n].geom.bandCount → s.part.slots[n].bands[b].state = .good →
      s.part.slots[n].bands[b].loc.meets w.addr.toNat = true →
      ∃ t, exec (.upstreamWriteBlock w) s = .next t
        ∧ t.part.slots[n].bands[b].state ≠ .good
        ∧ (t.part.slots[n].inUse = true → t.part.slots[n].bands[b].state = .trampled))
  ∧ (∀ (w : WriteBlock) (s : State) (n : Fin 512) (b : Fin 64) (m : Fin 64) (i : Fin 4), s.resetn = true →
      w.addr.toNat % 64 = 0 → s.part.openTo w.addr.toNat → s.part.slots[n].inUse = true → s.part.slots[n].allGood →
      s.part.slots[n].metEntries w.addr.toNat = [.band b] →
      (∀ j : Fin 512, j ≠ n → s.part.slots[j].metEntries w.addr.toNat = []) →
      s.part.plates[m].state = .ready ∨ s.part.plates[m].state = .queued →
      s.part.plates[m].copy.hold = .hold → s.part.plates[m].forced = false →
      s.part.plates[m].deadlinePassed = false → i.val < s.part.plates[m].copy.placements.length →
      s.part.plates[m].res[i].pinned = true → s.part.plates[m].res[i].slot = n →
      (∀ k : Fin 2, k ≠ s.part.plates[m].copy.channel → m ∉ s.part.channels[k].ready) →
      ∃ t, exec (.upstreamWriteBlock w) s = .next t
        ∧ t.part.plates[m] = { s.part.plates[m] with
            state := .waiting, holds := satInc 65535 s.part.plates[m].holds })

/-! ## The exposure feed (chapters 3 and 7) -/

/-- A read of a plate window whose channel is IDLE (R127): zeros, counted; the first one since the channel became IDLE
raises CHANNEL_IDLE_READ. In DRAINING (R136) a read at another offset than 0 is zeros, counted as a drain read and
nothing else; one at offset 0 ends the draining: with an empty queue it is the first idle read of a new idle episode,
else the head plate starts. -/
def Obligations.IdleReadIsCounted : Prop :=
  ∀ (r : ReadBlock) (k : Fin 2) (offset : Nat) (s : State), s.resetn = true → r.addr.toNat % 64 = 0 →
    s.part.readsPlate r.addr.toNat k offset → s.part.channels[k].inHand = none →
    let told := s.part.after .channelIdleRead
      (.plate { plate := 255, channel := k.val, tail := leBytes 4 offset ++ leBytes 1 r.source.val })
    let zeroed := addBlock s.xfers r.source true r.addr.toNat (.data (List.replicate 64 0)) r.last
    (s.part.channels[k].state = .idle →
      ∃ t, exec (.plateWindowRead r) s = .next t ∧ exec (.upstreamReadBlock r) s = .next t
        ∧ t.part.channels = s.part.channels.set k
            { s.part.channels[k] with
              idleReads := satInc 4294967295 s.part.channels[k].idleReads, idlePending := false }
        ∧ t.part.reports = (if s.part.channels[k].idlePending then told else s.part.reports)
        ∧ t = { s with
                part := { s.part with channels := t.part.channels, reports := t.part.reports, mem := t.part.mem
                                      port := t.part.port }
                xfers := zeroed }
        ∧ s.part.keptOutside t.part s.part.reportRanges)
    ∧ (s.part.channels[k].state = .draining → offset ≠ 0 →
      exec (.plateWindowRead r) s = .next
        { s with
          part := { s.part with
            channels := s.part.channels.set k { s.part.channels[k] with drainReads := satInc 4294967295 s.part.channels[k].drainReads } }
          xfers := zeroed })
    ∧ (s.part.channels[k].state = .draining → offset = 0 → s.part.channels[k].queue = [] →
      ∃ t, exec (.plateWindowRead r) s = .next t
        ∧ t.part.channels = s.part.channels.set k
            { s.part.channels[k] with
              state := .idle, idleReads := satInc 4294967295 s.part.channels[k].idleReads, idlePending := false }
        ∧ t.part.reports = told
        ∧ t = { s with
                part := { s.part with channels := t.part.channels, reports := t.part.reports, mem := t.part.mem
                                      port := t.part.port }
                xfers := zeroed }
        ∧ s.part.keptOutside t.part s.part.reportRanges)
    ∧ (∀ (n : Fin 64) (behind : List (Fin 64)), s.part.channels[k].state = .draining → offset = 0 →
      s.part.channels[k].queue = n :: behind →
      0 < s.part.plates[n].copy.height * (s.part.plates[n].copy.width / 8) →
      ∃ t, exec (.plateWindowRead r) s = .next t
        ∧ t.part.channels[k].state = .exposing ∧ t.part.channels[k].queue = n :: behind
        ∧ t.part.channels[k].pass = 0 ∧ t.part.channels[k].nextOffset = 0
        ∧ t.part.channels[k].drainReads = s.part.channels[k].drainReads
        ∧ t.part.channels[k].inHand.isSome = true
        ∧ t.part.plates[n].state = .exposing ∧ t.part.plates[n].summary.startTick = s.part.tick
        ∧ (∀ j : Fin 64, j ≠ n → t.part.plates[j] = s.part.plates[j])
        ∧ (∀ j : Fin 2, j ≠ k → t.part.channels[j] = s.part.channels[j])
        ∧ t.xfers = addBlock s.xfers r.source true r.addr.toNat (.composing k) r.last)

/-- Reads that a plate serves. The first read of a PRIMED channel inside the raster starts its head plate (R114, R128):
EXPOSING, a new pass, the summary's start, PLATE_STARTED; the block is taken in hand for composition (R129, R137). In
EXPOSING a read beyond the raster is zeros and counted as an overrun, and nothing else changes (R129, case 1); one at
offset 0 after a block beyond it restarts the pass (R129, R130): the pass state begins again, pass number and restart
count are advanced, PLATE_RESTARTED is raised with the last offset served and its line, and the block is taken in
hand. -/
def Obligations.FirstReadStartsThePlate : Prop :=
  ∀ (r : ReadBlock) (k : Fin 2) (offset : Nat) (n : Fin 64) (behind : List (Fin 64)) (s : State), s.resetn = true →
    r.addr.toNat % 64 = 0 → s.part.readsPlate r.addr.toNat k offset →
    s.part.channels[k].inHand = none → s.part.channels[k].queue = n :: behind →
    let raster := s.part.plates[n].copy.height * (s.part.plates[n].copy.width / 8)
    let last := s.part.channels[k].nextOffset - 64
    (s.part.channels[k].state = .primed → offset < raster →
      ∃ t, exec (.plateWindowRead r) s = .next t
        ∧ t.part.plates = s.part.plates.set n
            { s.part.plates[n] with
              state := .exposing
              summary := { s.part.plates[n].summary with
                startTick := s.part.tick
                exposedForced := s.part.plates[n].forced
                repinsAtStart := s.part.plates[n].repins } }
        ∧ t.part.channels = s.part.channels.set k
            { s.part.channels[k] with
              state := .exposing, pass := 0, nextOffset := 0, order := true, beyondZero := false
              checksum := 0xFFFFFFFF, markRaised := false, damageRaised := false
              inHand := t.part.channels[k].inHand, cursors := t.part.channels[k].cursors }
        ∧ (∃ items, t.part.channels[k].inHand
            = some { offset := offset, plate := n, copy := s.part.plates[n].copy, live := true
                     stage := .preparation, items := items, snapshot := [] })
        ∧ t.part.reports = s.part.after .plateStarted
            (.plate { label := s.part.plates[n].copy.label, plate := n.val
                      channel := s.part.plates[n].copy.channel.val, forced := s.part.plates[n].forced
                      tail := s.part.plates[n].startedTail })
        ∧ t = { s with
                part := { s.part with plates := t.part.plates, channels := t.part.channels, reports := t.part.reports
                                      mem := t.part.mem, port := t.part.port }
                xfers := addBlock s.xfers r.source true r.addr.toNat (.composing k) r.last }
        ∧ s.part.keptOutside t.part (plateRange n :: s.part.reportRanges))
    ∧ (s.part.channels[k].state = .exposing → raster ≤ offset →
      exec (.plateWindowRead r) s = .next
        { s with
          part := { s.part with
            plates := s.part.plates.set n
              { s.part.plates[n] with
                summary := { s.part.plates[n].summary with
                  overruns := satInc 4294967295 s.part.plates[n].summary.overruns } } }
          xfers := addBlock s.xfers r.source true r.addr.toNat (.data (List.replicate 64 0)) r.last })
    ∧ (s.part.channels[k].state = .exposing → offset = 0 → 0 < raster → s.part.channels[k].beyondZero = true →
      ∃ t, exec (.plateWindowRead r) s = .next t
        ∧ t.part.plates = s.part.plates.set n
            { s.part.plates[n] with
              summary := { s.part.plates[n].summary with
                restarts := satInc 65535 s.part.plates[n].summary.restarts } }
        ∧ t.part.channels = s.part.channels.set k
            { s.part.channels[k] with
              pass := satInc 65535 s.part.channels[k].pass, nextOffset := 0, order := true, beyondZero := false
              checksum := 0xFFFFFFFF, markRaised := false, damageRaised := false
              inHand := t.part.channels[k].inHand, cursors := t.part.channels[k].cursors }
        ∧ (∃ items, t.part.channels[k].inHand
            = some { offset := 0, plate := n, copy := s.part.plates[n].copy, live := true, stage := .preparation
                     items := items, snapshot := [] })
        ∧ s.part.tells t.part .plateRestarted
            (.plate { label := s.part.plates[n].copy.label, plate := n.val
                      channel := s.part.plates[n].copy.channel.val, pass := satInc 65535 s.part.channels[k].pass
                      tail := leBytes 4 last ++ leBytes 2 (last / (s.part.plates[n].copy.width / 8)) })
        ∧ t = { s with
                part := { s.part with plates := t.part.plates, channels := t.part.channels, reports := t.part.reports
                                      mem := t.part.mem, port := t.part.port }
                xfers := addBlock s.xfers r.source true r.addr.toNat (.composing k) r.last }
        ∧ s.part.keptOutside t.part (plateRange n :: s.part.reportRanges))

/-- The re-read of a band ends with the CRC that its open captured (R55): the cursor holds the open band and the request
has its answer; nothing beside the channel and the port's last grant (R170) changes. The re-read and the decode are given
one list of returned bytes: log 36. -/
def Obligations.OpenEndsWell : Prop :=
  ∀ (k : Fin 2) (i : Fin 4) (cells : List Host.Cell) (s : State) (h : InHand) (c : Cursor) (it : PrepItem)
    (o : Opening), s.resetn = true → s.part.channels[k].findOpen i .band = some (h, c, it, o) →
    o.interrupted = false → crc32 (s.part.mem.payload cells o.cap.loc) = o.cap.crc →
    ∃ t b spans, exec (.openComplete k i .band cells) s = .next t
      ∧ t = { s with part := { s.part with channels := t.part.channels
                                           port := { s.part.port with lastGrant := .own } } }
      ∧ t.part.channels = s.part.channels.set k
          { s.part.channels[k] with
            inHand := some (h.setItem { it with spans := spans })
            cursors := setCursor s.part.channels[k].cursors { c with opening := none, band := some b } }
      ∧ b.band = it.band ∧ b.cap = o.cap ∧ b.interrupted = false
      ∧ (b.broken = true → spans = .broken)
      ∧ (b.broken = false → spans = .data (clipSpans b.spans it.low it.high))

/-- Preparation has ended and the block is not the raster's last (R131, R138): the block is composed from its snapshot,
answered in its transaction, and accounted for. -/
def Obligations.BlockIsComposed : Prop :=
  ∀ (k : Fin 2) (s : State) (h : InHand), s.resetn = true → s.part.channels[k].inHand = some h →
    h.prepared = true → h.live = true → h.offset + 64 ≠ h.copy.height * (h.copy.width / 8) →
    let x := s.part.compose k h s.tiles
    ∃ t, exec (.blockComposition k) s = .next t
      ∧ t.xfers = settleBlock s.xfers k x.bytes
      ∧ t.part.channels[k].inHand = none
      ∧ t.part.channels[k].checksum = crcRun s.part.channels[k].checksum x.bytes
      ∧ t.part.channels[k].nextOffset = h.offset + 64
      ∧ t.part.channels[k].order = (s.part.channels[k].order && h.offset == s.part.channels[k].nextOffset)
      ∧ t.part.channels[k].beyondZero = (s.part.channels[k].beyondZero || h.offset != 0)
      ∧ t.part.plates = s.part.plates.set h.plate
          { s.part.plates[h.plate] with
            summary := { s.part.plates[h.plate].summary with
              blocks := satInc 4294967295 s.part.plates[h.plate].summary.blocks
              lines := if h.copy.columnAt h.offset = h.copy.width / 8 / 64 - 1 then
                  satInc 4294967295 s.part.plates[h.plate].summary.lines
                else s.part.plates[h.plate].summary.lines
              hatched := if x.cause.isSome then satInc 4294967295 s.part.plates[h.plate].summary.hatched
                else s.part.plates[h.plate].summary.hatched } }
      ∧ (∀ j : Fin 2, j ≠ k → t.part.channels[j] = s.part.channels[j])
      ∧ t = { s with
              part := { s.part with channels := t.part.channels, plates := t.part.plates, reports := t.part.reports
                                    mem := t.part.mem, port := t.part.port }
              xfers := t.xfers }
      ∧ s.part.keptOutside t.part [plateRange h.plate, (Config.offReportRing, 32768), headerRange]

/-- The raster's last block ends the plate (R114, R134): DONE, the summary's end tick, checksum and valid mark, the
pins and the set's use released (R89, R109), the cursors discarded; a slot that one placement was pinned to, and that is
not freed by it, has one pin less; the channel, whose queue held no other plate, is IDLE. -/
def Obligations.FinalBlockEndsThePlate : Prop :=
  ∀ (k : Fin 2) (s : State) (h : InHand), s.resetn = true → s.part.channels[k].inHand = some h →
    h.prepared = true → h.live = true → h.offset + 64 = h.copy.height * (h.copy.width / 8) →
    s.part.channels[k].queue = [h.plate] → s.part.channels[k].ready = [] →
    (∀ n : Fin 16, s.part.windows[n].state ≠ .closing) →
    let x := s.part.compose k h s.tiles
    let plate := s.part.plates[h.plate]
    ∃ t, exec (.blockComposition k) s = .next t
      ∧ t.xfers = settleBlock s.xfers k x.bytes
      ∧ t.part.plates[h.plate].state = .done
      ∧ t.part.plates[h.plate].summary.endTick = s.part.tick
      ∧ t.part.plates[h.plate].summary.checksum = ~~~ crcRun s.part.channels[k].checksum x.bytes
      ∧ t.part.plates[h.plate].summary.valid
          = (s.part.channels[k].order && h.offset == s.part.channels[k].nextOffset)
      ∧ (∀ i : Fin 4, t.part.plates[h.plate].res[i].pinned = false)
      ∧ (∀ m : Fin 512, (∀ i : Fin 4, ¬ (plate.res[i].pinned = true ∧ plate.res[i].slot = m)) →
          t.part.slots[m] = s.part.slots[m])
      ∧ (∀ (m : Fin 512) (i : Fin 4), plate.res[i].pinned = true → plate.res[i].slot = m →
          (∀ j : Fin 4, j ≠ i → ¬ (plate.res[j].pinned = true ∧ plate.res[j].slot = m)) →
          (¬ (s.part.slots[m].state = .superseded ∧ s.part.slots[m].pins ≤ 1) →
            t.part.slots[m] = { s.part.slots[m] with
              pins := s.part.slots[m].pins - 1, change := s.part.slots[m].change + 1 })
          ∧ (s.part.slots[m].state = .superseded → s.part.slots[m].pins ≤ 1 → t.part.slots[m].state = .free))
      ∧ t.part.sets[s.part.plates[h.plate].copy.screenSet].use
          = s.part.sets[s.part.plates[h.plate].copy.screenSet].use - 1
      ∧ t.part.channels[k].state = .idle ∧ t.part.channels[k].queue = [] ∧ t.part.channels[k].inHand = none
      ∧ t.part.channels[k].cursors = []
      ∧ (∀ n : Fin 64, n ≠ h.plate → t.part.plates[n] = s.part.plates[n])
      ∧ t.part.windows = s.part.windows ∧ t.part.params = s.part.params ∧ t.part.units = s.part.units
      ∧ t.part.parsers = s.part.parsers ∧ t.part.filters = s.part.filters ∧ t.part.owners = s.part.owners
      ∧ t.tiles = s.tiles ∧ s.part.keptHostMemory t.part

/-- A composed block is 64 bytes, and pixel i of the block is bit 7 - i mod 8 of byte i div 8 (R142). The snapshot of a live
block, and of one that a CANCEL found in preparation (for the slots not freed since), takes the states its entries have
when composition begins, or the one preparation found (R66, R138). The value of a pixel (R139 to R142): paper
outside every frame, the hatch in an unresolved placement; in a resolved one line art OR dot. Line art: ink inside the
spans of a GOOD band; the hatch for a band that is not GOOD and for a line under the broken mark (R62). Dot: paper
where no region holds the pixel; for the region of the highest index (R73), where it is GOOD, ink when the transfer of
its sample is at least the threshold of the tile's entry (R74, R97, R98), else the hatch. The cause named is the band's,
else the region's (R143); that a broken line's cause names its GOOD band is log 35. -/
def Obligations.BlockPacksItsPixels : Prop :=
  (∀ (k : Fin 2) (s : State) (h : InHand),
      let x := s.part.compose k h s.tiles
      x.bytes.length = 64
      ∧ ∀ i, i < 512 →
        (x.bytes.getD (i / 8) 0).getLsbD (7 - i % 8)
          = (pixel h.copy ((s.part.beginComposition k h).sources s.part.channels[k].cursors)
              s.part.sets[h.copy.screenSet] s.tiles (512 * h.copy.columnAt h.offset + i)
              (h.copy.lineAt h.offset)).on)
  ∧ (∀ (k : Fin 2) (s : State) (h : InHand) (c : Cursor) (it : PrepItem),
      h.live = true ∨ (h.stage = .preparation ∧ s.part.allocated c.ref = true) →
      h.items.find? (fun y => y.placement == it.placement) = some it →
      s.part.channels[k].cursors.find? (fun y => y.placement == it.placement) = some c →
      ∃ a ∈ (s.part.beginComposition k h).sources s.part.channels[k].cursors,
        a.cursor = c ∧ a.item = it
        ∧ (∀ st, it.spans = .found st → a.band = st)
        ∧ ((∀ st, it.spans ≠ .found st) → a.band = (s.part.entryAt c.ref (.band it.band)).state)
        ∧ a.regions.map (fun r => r.1) = it.regions
        ∧ ((it.regions.map fun r => r.region).Nodup → ∀ r ∈ a.regions,
            (∀ st, r.1.answer = .found st → r.2 = st)
            ∧ ((∀ st, r.1.answer ≠ .found st) → r.2 = (s.part.entryAt c.ref (.tone r.1.region)).state)))
  ∧ (∀ (copy : PlateRecord) (sources : List Source) (set : ScreenSet) (t : TileMemory) (x y : Nat),
      ((∀ q ∈ copy.numberedPlacements, q.2.holds x y = false) →
        pixel copy sources set t x y = { on := false, cause := none })
      ∧ (∀ q, copy.numberedPlacements.find? (fun q => q.2.holds x y) = some q →
        (∀ a ∈ sources, a.cursor.placement ≠ q.1) →
        pixel copy sources set t x y = { on := decide ((x + y) % 32 < 4), cause := some (.unresolved q.1) })
      ∧ (∀ q a, copy.numberedPlacements.find? (fun q => q.2.holds x y) = some q →
        sources.find? (fun a => a.cursor.placement == q.1) = some a →
        a.regions.Pairwise (fun u v => u.1.region < v.1.region) →
        let px := if q.2.turned then q.2.frameW - 1 - (x - q.2.x0) else x - q.2.x0
        let hatched := (x + y) % 32 < 4
        let cause := fun ref st => HatchCause.entry q.1 a.cursor.ref.slot a.cursor.version ref st
        let holds := fun u : RegionNeed × EntryState =>
          let d := a.cursor.geom.regions[u.1.region]
          d.x ≤ px ∧ px < d.x + d.w ∧ d.y ≤ a.item.line ∧ a.item.line < d.y + d.h
        let wins := fun u => u ∈ a.regions ∧ holds u ∧ ∀ v ∈ a.regions, holds v → v.1.region ≤ u.1.region
        let threshold := (t.read (4096 * set.start + (y % set.h * set.w + (x + y / set.h * set.s) % set.w))).toNat
        ∀ (line dot : Prop) (lineCause dotCause : Option HatchCause),
          ((∃ spans, a.band = .good ∧ a.item.spans = .data spans ∧ lineCause = none
              ∧ (line ↔ ∃ p ∈ spans, p.1 ≤ px ∧ px < p.2))
            ∨ ((a.band ≠ .good ∨ a.item.spans = .broken) ∧ lineCause = some (cause (.band a.item.band) a.band)
              ∧ (line ↔ hatched))) →
          (((∀ u ∈ a.regions, ¬ holds u) ∧ dotCause = none ∧ ¬ dot)
            ∨ (∃ u samples, wins u ∧ u.2 = .good ∧ u.1.answer = .data samples ∧ dotCause = none
              ∧ (dot ↔ threshold ≤ set.table.getD
                  (samples.bytes.getD ((px - a.cursor.geom.regions[u.1.region].x)
                    / a.cursor.geom.regions[u.1.region].scale - samples.firstCol) 0).toNat 0))
            ∨ (∃ u, wins u ∧ u.2 ≠ .good ∧ dotCause = some (cause (.tone u.1.region) u.2) ∧ (dot ↔ hatched))) →
          ((pixel copy sources set t x y).on = true ↔ line ∨ dot)
          ∧ (pixel copy sources set t x y).cause = (if lineCause = none then dotCause else lineCause)))

/-- The hatch pattern (R157): ink where (x + y) mod 32 < 4; 4 pixels in any 32 of a line or a column, 128 in any square
of 32; 64 in a block, whose line repeats every 32 pixels; one line down is one pixel to the left. -/
def Obligations.HatchPattern : Prop :=
  (∀ x y, hatch x y = true ↔ (x + y) % 32 < 4)
    ∧ (∀ x y, (List.range 32).countP (fun i => hatch (x + i) y) = 4)
    ∧ (∀ x y, (List.range 32).countP (fun i => hatch x (y + i)) = 4)
    ∧ (∀ x y, ((List.range 32).map fun j => (List.range 32).countP fun i => hatch (x + i) (y + j)).sum = 128)
    ∧ (∀ x y, x % 32 = 0 → (List.range 512).countP (fun i => hatch (x + i) y) = 64)
    ∧ (∀ x y, hatch x y = true ↔ ∃ j, j < 4 ∧ x % 32 = ((32 - y % 32) % 32 + j) % 32)
    ∧ (∀ x y, x % 32 = 0 →
        let group := packPixels ((List.range 32).map fun i => hatch (x + i) y)
        (y % 32 = 0 → group = [0xF0, 0, 0, 0]) ∧ (y % 32 = 4 → group = [0, 0, 0, 0x0F])
          ∧ (y % 32 = 5 → group = [0, 0, 0, 0x1E]))
    ∧ (∀ x y, hatch (x + 32) y = hatch x y ∧ hatch x (y + 32) = hatch x y)
    ∧ (∀ x y, hatch x (y + 1) = hatch (x + 1) y)

/-! ## Host commands of the header, window and filter records (chapters 1 and 9) -/

/-- SET_PARAMS (R181): a default filter action other than ACCEPT (1) or REJECT (2) is BAD_PARAM 1; else the six values
are set together, gap_ms and orphan_ms taken into their ranges, and DONE tells which of them were. -/
def Obligations.SetParams : Prop :=
  ∀ s : State, s.runs .header (some .setParams) →
    let f := parseParams (s.part.copyOf .header)
    ((f.action ≠ 1 ∧ f.action ≠ 2) →
      ∃ t, exec .setParams s = .next t
        ∧ s.part.ended t.part .header .badParam 1
        ∧ t = { s with part := { s.part with units := t.part.units, mem := t.part.mem, port := t.part.port } }
        ∧ s.part.keptOutside t.part [headerRange])
    ∧ (∀ a : FilterAction, f.action = a.code →
      ∃ t, exec .setParams s = .next t
        ∧ t.part.params =
          { gapMs := if f.gapMs < 100 then 100 else if 600000 < f.gapMs then 600000 else f.gapMs
            orphanMs := if f.orphanMs < 1000 then 1000 else if 600000 < f.orphanMs then 600000 else f.orphanMs
            threshold := f.threshold, defaultAction := a, suppress := f.suppress, enable := f.enable }
        ∧ s.part.ended t.part .header .done
            ((if f.gapMs < 100 ∨ 600000 < f.gapMs then 1 else 0)
              + (if f.orphanMs < 1000 ∨ 600000 < f.orphanMs then 2 else 0))
        ∧ t = { s with part := { s.part with params := t.part.params, units := t.part.units, mem := t.part.mem
                                             port := t.part.port } }
        ∧ s.part.keptOutside t.part [headerRange])

/-- A window LOAD (R172, R173). One that passes every check: the window is ACTIVE with the copy of its record; an INTAKE
window sets up the parser of its stream and keeps its counters (R19); DONE, its detail stated by no rule (log 5). One
that fails a check is refused by the first that fails, with the nine results and details of R172, and nothing else
changes. -/
def Obligations.WindowLoad : Prop :=
  (∀ (s : State) (n : Fin 16) (cls : WindowClass), s.runs (.window n) (some .windowLoad) →
      let f := parseWindow (s.part.copyOf (.window n))
      s.part.windows[n].state = .inactive →
      ((f.cls = 1 ∧ f.binding < 4 ∧ cls = .intake) ∨ (f.cls = 2 ∧ f.binding < 2 ∧ cls = .plate)) →
      f.base % 4096 = 0 → f.size % 4096 = 0 → 65536 ≤ f.size → f.size ≤ 268435456 → f.base + f.size ≤ 2 ^ 40 →
      (f.base + f.size ≤ s.part.base ∨ s.part.base + 1048576 ≤ f.base) →
      (∀ m : Fin 16, s.part.windows[m].state ≠ .inactive →
        (f.base + f.size ≤ s.part.windows[m].base
          ∨ s.part.windows[m].base + s.part.windows[m].size ≤ f.base)
        ∧ ¬ (s.part.windows[m].cls = some cls ∧ s.part.windows[m].binding = f.binding)) →
      (cls = .plate → ∀ m : Fin 64,
        s.part.plates[m].state = .waiting ∨ s.part.plates[m].state = .ready ∨ s.part.plates[m].state = .queued →
        s.part.plates[m].copy.channel.val = f.binding →
        s.part.plates[m].copy.width / 8 * s.part.plates[m].copy.height ≤ f.size) →
      ∃ t detail, exec (.windowLoad n) s = .next t
        ∧ t.part.windows = s.part.windows.set n
            { state := .active, cls := some cls, binding := f.binding, base := f.base, size := f.size }
        ∧ (∀ k : Fin 4, t.part.parsers[k] =
            if cls = .intake ∧ k.val = f.binding then
              { filed := s.part.parsers[k].filed, rejected := s.part.parsers[k].rejected
                strays := s.part.parsers[k].strays, resyncs := s.part.parsers[k].resyncs
                late := s.part.parsers[k].late : Parser }
            else s.part.parsers[k])
        ∧ s.part.ended t.part (.window n) .done detail
        ∧ t = { s with part := { s.part with windows := t.part.windows, parsers := t.part.parsers
                                             units := t.part.units, freeReads := t.part.freeReads, mem := t.part.mem
                                             port := t.part.port } }
        ∧ s.part.keptOutside t.part [resultRange (.window n), headerRange])
  ∧ (∀ (s : State) (n : Fin 16), s.runs (.window n) (some .windowLoad) →
      let f := parseWindow (s.part.copyOf (.window n))
      (s.part.windows[n].state ≠ .inactive →
        ∃ t, exec (.windowLoad n) s = .next t
          ∧ s.part.ended t.part (.window n) .inUse (BitVec.ofNat 32 s.part.windows[n].state.code)
          ∧ t = { s with part := { s.part with units := t.part.units, mem := t.part.mem, port := t.part.port } }
          ∧ s.part.keptOutside t.part [resultRange (.window n)])
      ∧ (s.part.windows[n].state = .inactive → ¬ (f.cls = 1 ∧ f.binding < 4) → ¬ (f.cls = 2 ∧ f.binding < 2) →
        ∃ t, exec (.windowLoad n) s = .next t
          ∧ s.part.ended t.part (.window n) .badParam 1
          ∧ t = { s with part := { s.part with units := t.part.units, mem := t.part.mem, port := t.part.port } }
          ∧ s.part.keptOutside t.part [resultRange (.window n)]))
  ∧ (∀ (s : State) (n : Fin 16), s.runs (.window n) (some .windowLoad) →
      let f := parseWindow (s.part.copyOf (.window n))
      let refused := fun code detail => s.endsOnly (.windowLoad n) (.window n) code (BitVec.ofNat 32 detail)
      let cls := if f.cls = 1 then WindowClass.intake else .plate
      let meets := fun m : Fin 16 => s.part.windows[m].state ≠ .inactive
        ∧ f.base < s.part.windows[m].base + s.part.windows[m].size ∧ s.part.windows[m].base < f.base + f.size
      let bound := fun m : Fin 16 => s.part.windows[m].state ≠ .inactive ∧ s.part.windows[m].cls = some cls
        ∧ s.part.windows[m].binding = f.binding
      let outgrows := fun m : Fin 64 =>
        (s.part.plates[m].state = .waiting ∨ s.part.plates[m].state = .ready ∨ s.part.plates[m].state = .queued)
        ∧ s.part.plates[m].copy.channel.val = f.binding
        ∧ f.size < s.part.plates[m].copy.width / 8 * s.part.plates[m].copy.height
      let passed2 := s.part.windows[n].state = .inactive
        ∧ ((f.cls = 1 ∧ f.binding < 4) ∨ (f.cls = 2 ∧ f.binding < 2))
      let passed3 := passed2 ∧ f.base % 4096 = 0
      let passed4 := passed3 ∧ f.size % 4096 = 0 ∧ 65536 ≤ f.size ∧ f.size ≤ 268435456
      let passed5 := passed4 ∧ f.base + f.size ≤ 2 ^ 40
      let passed6 := passed5 ∧ (f.base + f.size ≤ s.part.base ∨ s.part.base + 1048576 ≤ f.base)
      let passed7 := passed6 ∧ ∀ m, ¬ meets m
      let passed8 := passed7 ∧ ∀ m, ¬ bound m
      (passed2 → f.base % 4096 ≠ 0 → refused .badParam 2)
      ∧ (passed3 → f.size % 4096 ≠ 0 ∨ f.size < 65536 ∨ 268435456 < f.size → refused .badParam 3)
      ∧ (passed4 → 2 ^ 40 < f.base + f.size → refused .badParam 4)
      ∧ (passed5 → s.part.base < f.base + f.size → f.base < s.part.base + 1048576 → refused .overlap 16)
      ∧ (passed6 → ∀ m, meets m → (∀ j, j < m → ¬ meets j) → refused .overlap m.val)
      ∧ (passed7 → ∀ m, bound m → (∀ j, j < m → ¬ bound j) → refused .inUse (m.val + 32))
      ∧ (passed8 → f.cls = 2 → ∀ m, outgrows m → (∀ j, j < m → ¬ outgrows j) → refused .badParam (64 + m.val)))

/-- A window CLOSE by state and class (R174, R175): INACTIVE is DONE at once; a PLATE window of a channel that is not
EXPOSING becomes INACTIVE, DONE; one of an EXPOSING channel becomes CLOSING and its record stays locked; an INTAKE
window becomes INACTIVE, and a parser that was not in PAYLOAD returns to SEEK with its sequence and counters (R20). That
the parser fields R20 does not name (running CRC, decision, field fault, verdict, validator, capture) take the values of
R19 is log 28 (DEDUCED). -/
def Obligations.WindowClose : Prop :=
  ∀ (s : State) (n : Fin 16), s.runs (.window n) (some .windowClose) →
    let w := s.part.windows[n]
    (w.state = .inactive →
      ∃ t, exec (.windowClose n) s = .next t
        ∧ s.part.ended t.part (.window n) .done 0
        ∧ t = { s with part := { s.part with units := t.part.units, mem := t.part.mem, port := t.part.port } }
        ∧ s.part.keptOutside t.part [resultRange (.window n)])
    ∧ (w.state = .active → w.cls = some .plate → s.part.channels[w.channel].state ≠ .exposing →
      ∃ t, exec (.windowClose n) s = .next t
        ∧ t.part.windows = s.part.windows.set n { w with state := .inactive }
        ∧ s.part.ended t.part (.window n) .done 1
        ∧ t = { s with part := { s.part with windows := t.part.windows, units := t.part.units, mem := t.part.mem
                                             port := t.part.port } }
        ∧ s.part.keptOutside t.part [resultRange (.window n)])
    ∧ (w.state = .active → w.cls = some .plate → s.part.channels[w.channel].state = .exposing →
      ∃ t, exec (.windowClose n) s = .next t
        ∧ t.part.windows = s.part.windows.set n { w with state := .closing }
        ∧ t.part.unit (.window n) = { s.part.unit (.window n) with stage := .running }
        ∧ (∀ r, r ≠ .window n → t.part.unit r = s.part.unit r)
        ∧ t = { s with part := { s.part with windows := t.part.windows, units := t.part.units, mem := t.part.mem
                                             port := t.part.port } }
        ∧ s.part.keptOutside t.part [resultRange (.window n)])
    ∧ (w.state = .active → w.cls = some .intake → s.part.parsers[w.stream].state ≠ .payload →
      ∃ t, exec (.windowClose n) s = .next t
        ∧ t.part.windows = s.part.windows.set n { w with state := .inactive }
        ∧ t.part.parsers = s.part.parsers.set w.stream
            { sequence := s.part.parsers[w.stream].sequence, filed := s.part.parsers[w.stream].filed
              rejected := s.part.parsers[w.stream].rejected, strays := s.part.parsers[w.stream].strays
              resyncs := s.part.parsers[w.stream].resyncs, late := s.part.parsers[w.stream].late }
        ∧ s.part.ended t.part (.window n) .done 1
        ∧ t = { s with part := { s.part with windows := t.part.windows, parsers := t.part.parsers
                                             units := t.part.units, mem := t.part.mem, port := t.part.port } }
        ∧ s.part.keptOutside t.part [resultRange (.window n), headerRange])

/-- Filter LOAD (R17): pages outside 1 to 999, a low page above the high one or an unknown action is BAD_PARAM and
changes no filter; else the entry is replaced and its hit count is 0. DISABLE: the entry's enable is cleared and nothing
else of it; DONE. The details are stated by no rule (log 5). -/
def Obligations.FilterCommands : Prop :=
  (∀ (s : State) (n : Fin 16), s.runs (.filter n) (some .filterLoad) →
      let f := parseFilter (s.part.copyOf (.filter n))
      let pages := 1 ≤ f.pageLow ∧ f.pageLow ≤ 999 ∧ 1 ≤ f.pageHigh ∧ f.pageHigh ≤ 999 ∧ f.pageLow ≤ f.pageHigh
      ((¬ pages ∨ (f.action ≠ 1 ∧ f.action ≠ 2)) →
        ∃ t detail, exec (.filterLoad n) s = .next t
          ∧ s.part.ended t.part (.filter n) .badParam detail
          ∧ t = { s with part := { s.part with units := t.part.units, freeReads := t.part.freeReads
                                               mem := t.part.mem, port := t.part.port } }
          ∧ s.part.keptOutside t.part [resultRange (.filter n)])
      ∧ (∀ a : FilterAction, pages → f.action = a.code →
        ∃ t detail, exec (.filterLoad n) s = .next t
          ∧ t.part.filters = s.part.filters.set n
              { enable := f.enable, action := a, edition := f.edition, editionMask := f.editionMask, zone := f.zone
                zoneMask := f.zoneMask, pageLow := f.pageLow, pageHigh := f.pageHigh, seps := f.seps, hits := 0 }
          ∧ s.part.ended t.part (.filter n) .done detail
          ∧ t = { s with part := { s.part with filters := t.part.filters, units := t.part.units
                                               freeReads := t.part.freeReads, mem := t.part.mem, port := t.part.port } }
          ∧ s.part.keptOutside t.part [resultRange (.filter n)]))
  ∧ (∀ (s : State) (n : Fin 16), s.runs (.filter n) (some .filterDisable) →
      ∃ t detail, exec (.filterDisable n) s = .next t
        ∧ t.part.filters = s.part.filters.set n { s.part.filters[n] with enable := false }
        ∧ s.part.ended t.part (.filter n) .done detail
        ∧ t = { s with part := { s.part with filters := t.part.filters, units := t.part.units
                                             freeReads := t.part.freeReads, mem := t.part.mem, port := t.part.port } }
        ∧ s.part.keptOutside t.part [resultRange (.filter n)])

/-- A code that the record does not take: UNKNOWN with the code as detail; nothing else changes (R179). A command that a
plant restart bars (R180, R187, R188: dispatched during it, or taken during it, or taken before it and dispatched only
after it) does not act, whenever it is dispatched: its record waits for BUSY, which any such record gets once the sweep
is over; while the sweep runs, the records that are no set and no plate wait. That an unknown code is barred too is
log 19. -/
def Obligations.UnknownAndBusy : Prop :=
  (∀ (s : State) (r : RecordId), s.runs r none →
      ∃ t, exec (.unknownCommand r) s = .next t
        ∧ s.part.ended t.part r .unknown (BitVec.ofNat 32 (leField (s.part.copyOf r) 0 1))
        ∧ t = { s with part := { s.part with units := t.part.units, mem := t.part.mem, port := t.part.port } }
        ∧ s.part.keptOutside t.part [resultRange r])
  ∧ (∀ s : State, s.resetn = true →
      let barred := fun (i : Instr) (r : RecordId) (c : Option Command) => s.part.awaits r c = true → s.bars r →
        exec i s = .next { s with part := s.part.setStage r .busy }
      barred .setParams .header (some .setParams)
      ∧ (∀ n, barred (.windowLoad n) (.window n) (some .windowLoad))
      ∧ (∀ n, barred (.windowClose n) (.window n) (some .windowClose))
      ∧ (∀ n, barred (.filterLoad n) (.filter n) (some .filterLoad))
      ∧ (∀ n, barred (.filterDisable n) (.filter n) (some .filterDisable))
      ∧ (∀ n, barred (.screenSetLoad n) (.screenSet n) (some .setLoad))
      ∧ (∀ n, barred (.unload n) (.screenSet n) (some .setUnload))
      ∧ (∀ n, barred (.arm n) (.plate n) (some .arm))
      ∧ (∀ n, barred (.cancel n) (.plate n) (some .cancel))
      ∧ (∀ n, barred (.release n) (.plate n) (some .release))
      ∧ barred .discardPage .directory (some .discardPage)
      ∧ barred .discardEdition .directory (some .discardEdition)
      ∧ barred .clearCounters .directory (some .clearCounters)
      ∧ ∀ r, barred (.unknownCommand r) r none)
  ∧ (∀ (s : State) (r : RecordId), s.resetn = true → (s.part.unit r).stage = .busy →
      (s.part.sweep = .none →
        ∃ t, exec (.busyResult r) s = .next t
          ∧ s.part.ended t.part r .busy 0
          ∧ t = { s with part := { s.part with units := t.part.units, mem := t.part.mem, port := t.part.port } }
          ∧ s.part.keptOutside t.part [resultRange r])
      ∧ (∀ k, s.part.sweep = .restart k → (∀ n, r ≠ .screenSet n) → (∀ n, r ≠ .plate n) →
        exec (.busyResult r) s = .next s))

/-- RESTART (R186). Refused while a channel is EXPOSING or holds a block: IN_USE with a flag for each such channel.
Accepted: the directory, the transit, the plates, the channels, the use counts and the report unit are as after hard
reset; windows, filters, screen sets, parameters, tile memory and board memory stay; a parser in PAYLOAD is in HUNT, and
the status header shows at once every stream's fields (R24) and those of each channel that was not IDLE (R126, R144);
the restart's sweep begins and the record stays locked; commands taken and not yet dispatched are barred (R180). -/
def Obligations.Restart : Prop :=
  (∀ s : State, s.runs .header (some .restart) →
      let busy := fun k : Fin 2 => s.part.channels[k].state = .exposing ∨ s.part.channels[k].inHand ≠ none
      (busy 0 ∨ busy 1) →
      ∃ t detail, exec .restart s = .next t
        ∧ s.part.ended t.part .header .inUse detail
        ∧ (detail.getLsbD 0 = true ↔ busy 0) ∧ (detail.getLsbD 1 = true ↔ busy 1)
        ∧ t = { s with part := { s.part with units := t.part.units, mem := t.part.mem, port := t.part.port } }
        ∧ s.part.keptOutside t.part [headerRange])
  ∧ (∀ s : State, s.runs .header (some .restart) →
      (∀ k : Fin 2, s.part.channels[k].state ≠ .exposing ∧ s.part.channels[k].inHand = none) →
      ∃ t, exec .restart s = .next t
        ∧ t.part.sweep = .restart 0 ∧ t.part.transit = [] ∧ t.part.orphans = [] ∧ t.part.reports = {}
        ∧ (∀ n : Fin 512, t.part.slots[n] = {}) ∧ (∀ n : Fin 64, t.part.plates[n] = {})
        ∧ (∀ k : Fin 2, t.part.channels[k] = {})
        ∧ (∀ n : Fin 8, t.part.sets[n] = { s.part.sets[n] with use := 0 })
        ∧ (∀ k : Fin 4, s.part.parsers[k].state = .payload → t.part.parsers[k].state = .hunt)
        ∧ (∀ k : Fin 4, s.part.parsers[k].state ≠ .payload → t.part.parsers[k].state = s.part.parsers[k].state)
        ∧ (∀ k : Fin 4, t.part.parsers[k].sequence = none ∧ t.part.parsers[k].expected = s.part.parsers[k].expected
            ∧ t.part.parsers[k].filed = 0 ∧ t.part.parsers[k].rejected = 0 ∧ t.part.parsers[k].strays = 0
            ∧ t.part.parsers[k].resyncs = 0 ∧ t.part.parsers[k].late = 0)
        ∧ t.part.unit .header = { s.part.unit .header with stage := .running }
        ∧ (∀ r, r ≠ .header → t.part.unit r
            = if (s.part.unit r).stage = .taken then { s.part.unit r with stage := .barred } else s.part.unit r)
        ∧ t = { s with part := { s.part with
                sweep := t.part.sweep, transit := t.part.transit, orphans := t.part.orphans, reports := t.part.reports
                slots := t.part.slots, plates := t.part.plates, channels := t.part.channels, sets := t.part.sets
                parsers := t.part.parsers, units := t.part.units, mem := t.part.mem, port := t.part.port } }
        ∧ (Memory.wf s.part.mem → ∀ k : Fin 4,
            t.part.mem.readBytes (s.part.base + 0x140 + 40 * k.val) 40 = t.part.parsers[k].bytes)
        ∧ (Memory.wf s.part.mem → ∀ k : Fin 2, s.part.channels[k].state ≠ .idle →
            t.part.mem.readBytes (s.part.base + 0x1E0 + 16 * k.val) 16 = ({} : Channel).bytes)
        ∧ s.part.keptOutside t.part [headerRange])

/-! ## Screen sets (chapter 5) -/

/-- Screen set LOAD (R90, R91). Refused by the first of R90's nine checks that fails, the curve checks of R77 among them,
with its result and detail, and nothing else changes. One that passes them all is accepted: the set is LOADING with the
record's fields, trim clamped and the curve flags set (R78), and the area count of W x H (R87); the set owns the areas
the tile needs and no other, and its record stays locked. -/
def Obligations.ScreenSetLoad : Prop :=
  ∀ (s : State) (n : Fin 8), s.runs (.screenSet n) (some .setLoad) →
    let f := parseSet (s.part.copyOf (.screenSet n))
    let refused := fun code detail => s.endsOnly (.screenSetLoad n) (.screenSet n) code (BitVec.ofNat 32 detail)
    let areas := if f.w * f.h ≤ 4096 then 1 else if f.w * f.h ≤ 8192 then 2 else 4
    let needs := fun a : Fin 8 => f.start ≤ a.val ∧ a.val < f.start + areas
    let unused := s.part.sets[n].use = 0
    let curve := unused ∧ (∀ k : Fin 17, f.points[k] ≤ 4095)
    let dots := curve ∧ f.minDot ≤ 4095 ∧ f.maxDot ≤ 4095 ∧ f.minDot ≤ f.maxDot
    let width := dots ∧ 8 ≤ f.w ∧ f.w ≤ 128
    let height := width ∧ 8 ≤ f.h ∧ f.h ≤ 128
    let shift := height ∧ f.s ≤ f.w - 1
    let start := shift ∧ f.start ≤ 7
    let allowed := start ∧ f.start % areas = 0
    let placed := allowed ∧ f.source % 64 = 0 ∧ f.source + 2 * (f.w * f.h) ≤ 2 ^ 40
    (s.part.sets[n].use ≠ 0 → refused .inUse s.part.sets[n].use)
    ∧ (unused → ∀ k : Fin 17, 4095 < f.points[k] → (∀ j : Fin 17, j < k → f.points[j] ≤ 4095) →
        refused .badParam k.val)
    ∧ (curve → 4095 < f.minDot → refused .badParam 17)
    ∧ (curve → f.minDot ≤ 4095 → 4095 < f.maxDot → refused .badParam 18)
    ∧ (curve → f.minDot ≤ 4095 → f.maxDot ≤ 4095 → f.maxDot < f.minDot → refused .badParam 19)
    ∧ (dots → f.w < 8 ∨ 128 < f.w → refused .badParam 20)
    ∧ (width → f.h < 8 ∨ 128 < f.h → refused .badParam 21)
    ∧ (height → f.w - 1 < f.s → refused .badParam 22)
    ∧ (shift → 7 < f.start → refused .badParam 23)
    ∧ (start → f.start % areas ≠ 0 → refused .badParam 24)
    ∧ (allowed → f.source % 64 ≠ 0 ∨ 2 ^ 40 < f.source + 2 * (f.w * f.h) → refused .badParam 25)
    ∧ (placed → ∀ a m : Fin 8, needs a → s.part.owners[a] = some m → m ≠ n →
        (∀ b : Fin 8, b < a → needs b → s.part.owners[b] = none ∨ s.part.owners[b] = some n) →
        refused .areaTaken (a.val + 256 * m.val))
    ∧ (placed → (∀ a : Fin 8, needs a → s.part.owners[a] = none ∨ s.part.owners[a] = some n) →
      ∃ t, exec (.screenSetLoad n) s = .next t
        ∧ t.part.sets = s.part.sets.set n t.part.sets[n]
        ∧ t.part.sets[n].state = .loading ∧ t.part.sets[n].w = f.w ∧ t.part.sets[n].h = f.h
        ∧ t.part.sets[n].s = f.s ∧ t.part.sets[n].start = f.start ∧ t.part.sets[n].count = areas
        ∧ t.part.sets[n].points = f.points
        ∧ t.part.sets[n].trim = (if 256 < f.trim then 256 else f.trim)
        ∧ t.part.sets[n].trimClamped = decide (256 < f.trim)
        ∧ (t.part.sets[n].decreasing = true ↔ ∃ k : Fin 16, f.points[k.val + 1] < f.points[k.val])
        ∧ t.part.sets[n].minDot = f.minDot ∧ t.part.sets[n].maxDot = f.maxDot
        ∧ t.part.sets[n].table = [] ∧ t.part.sets[n].clamps = 0
        ∧ t.part.sets[n].source = f.source ∧ t.part.sets[n].use = 0
        ∧ (∀ a : Fin 8, (needs a → t.part.owners[a] = some n)
            ∧ (¬ needs a → t.part.owners[a] = if s.part.owners[a] = some n then none else s.part.owners[a]))
        ∧ t.part.unit (.screenSet n) = { s.part.unit (.screenSet n) with stage := .running }
        ∧ (∀ r, r ≠ .screenSet n → t.part.unit r = s.part.unit r)
        ∧ t = { s with part := { s.part with sets := t.part.sets, owners := t.part.owners, units := t.part.units
                                             mem := t.part.mem, port := t.part.port } }
        ∧ s.part.keptOutside t.part [resultRange (.screenSet n)])

/-- The tile read of a LOADING set ends (R92, R93): every threshold is stored, 0 as 1 and a value above 4095 as 4095;
the transfer table has its 256 entries; LOADED and DONE. -/
def Obligations.LoadCompletes : Prop :=
  ∀ (s : State) (n : Fin 8), s.resetn = true → s.part.sets[n].state = .loading → s.part.sweep = .none →
    TileMemory.wf s.tiles →
    let x := s.part.sets[n]
    let value := fun e => (s.part.mem.read (x.source + 2 * e)).toNat + 256 * (s.part.mem.read (x.source + 2 * e + 1)).toNat
    ∃ t, exec (.loadComplete n []) s = .next t
      ∧ t.part.sets = s.part.sets.set n
          { x with
            state := .loaded
            table := (List.finRange 256).map fun v => transferValue x.points x.trim x.minDot x.maxDot v
            clamps := (List.range (x.w * x.h)).countP fun e => decide (value e = 0 ∨ 4095 < value e) }
      ∧ (∀ e, e < x.w * x.h → (t.tiles.read (4096 * x.start + e)).toNat
          = if value e = 0 then 1 else if 4095 < value e then 4095 else value e)
      ∧ (∀ e, e < 4096 * x.start ∨ 4096 * x.start + x.w * x.h ≤ e → t.tiles.read e = s.tiles.read e)
      ∧ (t.part.unit (.screenSet n)).stage = .unlocked
      ∧ (t.part.unit (.screenSet n)).result.code = .done
      ∧ (∀ r, r ≠ .screenSet n → t.part.unit r = s.part.unit r)
      ∧ t = { s with
              part := { s.part with sets := t.part.sets, units := t.part.units, mem := t.part.mem
                                    port := t.part.port }
              tiles := t.tiles }
      ∧ s.part.keptOutside t.part [resultRange (.screenSet n)]

/-- UNLOAD (R96): IN_USE with the use count where a plate uses the set; a LOADED set becomes EMPTY and owns no area; an EMPTY
one stays as it is. -/
def Obligations.Unload : Prop :=
  ∀ (s : State) (n : Fin 8), s.runs (.screenSet n) (some .setUnload) →
    (s.part.sets[n].use ≠ 0 →
      ∃ t, exec (.unload n) s = .next t
        ∧ s.part.ended t.part (.screenSet n) .inUse (BitVec.ofNat 32 s.part.sets[n].use)
        ∧ t = { s with part := { s.part with units := t.part.units, mem := t.part.mem, port := t.part.port } }
        ∧ s.part.keptOutside t.part [resultRange (.screenSet n)])
    ∧ (s.part.sets[n].use = 0 → s.part.sets[n].state = .loaded →
      ∃ t, exec (.unload n) s = .next t
        ∧ t.part.sets = s.part.sets.set n {}
        ∧ (∀ a : Fin 8, t.part.owners[a] = if s.part.owners[a] = some n then none else s.part.owners[a])
        ∧ s.part.ended t.part (.screenSet n) .done 0
        ∧ t = { s with part := { s.part with sets := t.part.sets, owners := t.part.owners, units := t.part.units
                                             mem := t.part.mem, port := t.part.port } }
        ∧ s.part.keptOutside t.part [resultRange (.screenSet n)])
    ∧ (s.part.sets[n].use = 0 → s.part.sets[n].state = .empty →
      ∃ t, exec (.unload n) s = .next t
        ∧ s.part.ended t.part (.screenSet n) .done 0
        ∧ t = { s with part := { s.part with units := t.part.units, mem := t.part.mem, port := t.part.port } }
        ∧ s.part.keptOutside t.part [resultRange (.screenSet n)])

/-! ## Plates (chapter 6) -/

/-- ARM (R105, R106, R107). Refused by the first of R105's fourteen checks that fails, with its result and detail, and
nothing else changes. A record that passes every check, none of whose pages is in the directory and with no arm
deadline: the plate is WAITING with the internal copy of its record, everything else of it cleared, and DONE tells 0
placements resolved and the state. Both READY lists are empty. -/
def Obligations.ArmWaits : Prop :=
  ∀ (s : State) (n : Fin 64), s.runs (.plate n) (some .arm) →
    let f := parsePlate (s.part.copyOf (.plate n))
    (s.part.plates[n].state.armed = true →
      ∃ t, exec (.arm n) s = .next t
        ∧ s.part.ended t.part (.plate n) .inUse (BitVec.ofNat 32 s.part.plates[n].state.code)
        ∧ t = { s with part := { s.part with units := t.part.units, mem := t.part.mem, port := t.part.port } }
        ∧ s.part.keptOutside t.part [resultRange (.plate n)])
    ∧ (∀ policy action, s.part.armable n f policy action → f.deadline = 0 →
      (∀ q ∈ f.placements, ∀ m : Fin 512, s.part.slots[m].inUse = true →
        s.part.slots[m].id ≠ { edition := q.edition, zone := q.zone, page := q.page, sep := f.sep }) →
      (∀ k : Fin 2, s.part.channels[k].ready = []) →
      ∃ t, exec (.arm n) s = .next t
        ∧ t.part.plates = s.part.plates.set n { state := .waiting, copy := f.record policy action }
        ∧ s.part.ended t.part (.plate n) .done 256
        ∧ t = { s with part := { s.part with plates := t.part.plates, units := t.part.units, mem := t.part.mem
                                             port := t.part.port } }
        ∧ s.part.keptOutside t.part [plateRange n])
    ∧ (let refused := fun code detail => s.endsOnly (.arm n) (.plate n) code (BitVec.ofNat 32 detail)
      let fits := fun q : PlacementFields => 1 ≤ q.page ∧ q.page ≤ 999 ∧ q.rotation ≤ 1 ∧ 1 ≤ q.frameW ∧ 1 ≤ q.frameH
        ∧ q.x0 + q.frameW ≤ f.width ∧ q.y0 + q.frameH ≤ f.height
      let apart := fun i j : Nat => ∀ a b, f.placements[i]? = some a → f.placements[j]? = some b →
        a.x0 + a.frameW ≤ b.x0 ∨ b.x0 + b.frameW ≤ a.x0 ∨ a.y0 + a.frameH ≤ b.y0 ∨ b.y0 + b.frameH ≤ a.y0
      let passed1 := s.part.plates[n].state.armed = false
      let passed2 := passed1 ∧ 1 ≤ f.count ∧ f.count ≤ 4
      let passed3 := passed2 ∧ f.channel ≤ 1
      let passed4 := passed3 ∧ f.sep ≤ 3
      let passed5 := passed4 ∧ f.width % 512 = 0 ∧ 512 ≤ f.width ∧ f.width ≤ 32768
      let passed6 := passed5 ∧ 1 ≤ f.height ∧ f.height ≤ 32768
      let passed7 := passed6 ∧ f.screenSet ≤ 7
      let passed8 := passed7 ∧ (f.hold = 1 ∨ f.hold = 2)
      let passed9 := passed8 ∧ (f.action = 1 ∨ f.action = 2)
      let passed10 := passed9 ∧ f.mark < f.height
      let passed11 := passed10 ∧ ∀ q ∈ f.placements, fits q
      let passed12 := passed11 ∧ ∀ i j, i < j → apart i j
      let window := fun m : Fin 16 => s.part.windows[m].state = .active ∧ s.part.windows[m].cls = some .plate
        ∧ s.part.windows[m].binding = f.channel ∧ f.width / 8 * f.height ≤ s.part.windows[m].size
      let passed13 := passed12 ∧ ∃ m, window m
      (passed1 → f.count < 1 ∨ 4 < f.count → refused .badParam 1)
      ∧ (passed2 → 1 < f.channel → refused .badParam 2)
      ∧ (passed3 → 3 < f.sep → refused .badParam 3)
      ∧ (passed4 → f.width % 512 ≠ 0 ∨ f.width < 512 ∨ 32768 < f.width → refused .badParam 4)
      ∧ (passed5 → f.height < 1 ∨ 32768 < f.height → refused .badParam 5)
      ∧ (passed6 → 7 < f.screenSet → refused .badParam 6)
      ∧ (passed7 → f.hold ≠ 1 → f.hold ≠ 2 → refused .badParam 7)
      ∧ (passed8 → f.action ≠ 1 → f.action ≠ 2 → refused .badParam 8)
      ∧ (passed9 → f.height ≤ f.mark → refused .badParam 9)
      ∧ (passed10 → ∀ k q, f.placements[k]? = some q → ¬ fits q →
          (∀ j q', j < k → f.placements[j]? = some q' → fits q') → refused .badParam (16 + k))
      ∧ (passed11 → ∀ i j, i < j → ¬ apart i j →
          (∀ i' j', i' < j' → i' < i ∨ (i' = i ∧ j' < j) → apart i' j') → refused .overlap (i + 256 * j))
      ∧ (passed12 → (∀ m, ¬ window m) → refused .badParam 10)
      ∧ (passed13 → ∀ k : Fin 8, k.val = f.screenSet → s.part.sets[k].state ≠ .loaded →
          refused .noScreen s.part.sets[k].state.code))

/-- ARM of a plate with one placement whose page stands whole in slot `m`, on an IDLE channel with nothing listed (R106,
R107, R110 to R113): the placement is resolved and takes its pin, the plate is QUEUED at the head of its channel, which
is PRIMED, its screen set counts the use, and PLATE_QUEUED is raised. DONE tells 1 placement resolved and QUEUED. -/
def Obligations.ArmQueuesAWholePlate : Prop :=
  ∀ (s : State) (n : Fin 64) (m : Fin 512) (q : PlacementFields) (policy : HoldPolicy) (action : DeadlineAction),
    s.runs (.plate n) (some .arm) →
    let f := parsePlate (s.part.copyOf (.plate n))
    let copy := f.record policy action
    let k := copy.channel
    s.part.armable n f policy action → f.deadline = 0 → f.placements = [q] → q.version = 0 →
    s.part.slots[m].current = true →
    s.part.slots[m].id = { edition := q.edition, zone := q.zone, page := q.page, sep := f.sep } →
    (∀ j : Fin 512, s.part.slots[j].current = true → s.part.slots[j].id = s.part.slots[m].id → j = m) →
    s.part.slots[m].geom.width = q.frameW → s.part.slots[m].geom.height = q.frameH →
    (∀ i : Fin 64, i.val < s.part.slots[m].geom.bandCount → s.part.slots[m].bands[i].state = .good) →
    (∀ r : Fin 16, r.val < s.part.slots[m].geom.toneCount → s.part.slots[m].tones[r].state = .good) →
    (∀ j : Fin 2, s.part.channels[j].ready = []) → s.part.channels[k].queue = [] → s.part.channels[k].state = .idle →
    let resolved : Resolution :=
      { shown := true, pinned := true, slot := m, alloc := s.part.slots[m].alloc, version := s.part.slots[m].version }
    ∃ t, exec (.arm n) s = .next t
      ∧ t.part.plates = s.part.plates.set n
          { state := .queued, copy := copy, res := (Vector.replicate 4 {}).set 0 resolved }
      ∧ t.part.slots = s.part.slots.set m
          { s.part.slots[m] with pins := s.part.slots[m].pins + 1, change := s.part.slots[m].change + 1 }
      ∧ t.part.channels = s.part.channels.set k { s.part.channels[k] with queue := [n], state := .primed }
      ∧ t.part.sets = s.part.sets.set copy.screenSet
          { s.part.sets[copy.screenSet] with use := s.part.sets[copy.screenSet].use + 1 }
      ∧ t.part.reports = s.part.after .plateQueued
          (.plate { label := f.label, plate := n.val, channel := k.val })
      ∧ s.part.ended t.part (.plate n) .done 769
      ∧ t = { s with part := { s.part with
              plates := t.part.plates, slots := t.part.slots, channels := t.part.channels, sets := t.part.sets
              reports := t.part.reports, units := t.part.units, mem := t.part.mem, port := t.part.port } }
      ∧ s.part.keptOutside t.part
          (plateRange n :: mirrorRange m :: resultRange (.screenSet copy.screenSet) :: s.part.reportRanges)

/-- CANCEL (R109, R120). A plate that is not armed: nothing changes, DONE with its state. A WAITING plate that stands on
no list: CANCELLED, its pins released, DONE with the state it was cancelled from, and PLATE_CANCELLED, the only report
where no pin is released. The EXPOSING plate:
CANCELLED with the summary's end, its pins released, its channel DRAINING; with no block in hand the use of its set and
its cursors are released at once; a block in hand keeps its cursors (R135), and one whose preparation has ended the
snapshot of this moment, so that it is answered as it would have been without the CANCEL (R138). A block still in
preparation stays so (R66); that it holds the states of this moment, for slots freed before its snapshot, is log 12. The READY list is empty, so that no plate follows; no window is CLOSING. -/
def Obligations.Cancel : Prop :=
  ∀ (s : State) (n : Fin 64), s.runs (.plate n) (some .cancel) →
    let x := s.part.plates[n]
    let k := x.copy.channel
    let c := s.part.channels[k]
    let unpinned := x.res.map fun r => { r with pinned := false }
    (x.state.armed = false →
      ∃ t, exec (.cancel n) s = .next t
        ∧ s.part.ended t.part (.plate n) .done (BitVec.ofNat 32 x.state.code)
        ∧ t = { s with part := { s.part with units := t.part.units, mem := t.part.mem, port := t.part.port } }
        ∧ s.part.keptOutside t.part [resultRange (.plate n)])
    ∧ (x.state = .waiting → c.ready = [] → n ∉ c.queue → ¬ (c.state = .idle ∧ c.queue ≠ []) →
      ¬ (c.state = .primed ∧ c.queue = []) →
      ∃ t, exec (.cancel n) s = .next t
        ∧ t.part.plates = s.part.plates.set n { x with state := .cancelled, res := unpinned }
        ∧ (∀ m : Fin 512, (∀ i : Fin 4, ¬ (x.res[i].pinned = true ∧ x.res[i].slot = m)) →
            t.part.slots[m] = s.part.slots[m])
        ∧ (∀ (m : Fin 512) (i : Fin 4), x.res[i].pinned = true → x.res[i].slot = m →
            (∀ j : Fin 4, j ≠ i → ¬ (x.res[j].pinned = true ∧ x.res[j].slot = m)) →
            ¬ (s.part.slots[m].state = .superseded ∧ s.part.slots[m].pins ≤ 1) →
            t.part.slots[m] = { s.part.slots[m] with
              pins := s.part.slots[m].pins - 1, change := s.part.slots[m].change + 1 })
        ∧ ((∀ i : Fin 4, x.res[i].pinned = false) →
            t.part.reports = s.part.after .plateCancelled
              (.plate { label := x.copy.label, plate := n.val, channel := k.val, cause := 1 }))
        ∧ s.part.ended t.part (.plate n) .done 1
        ∧ t = { s with part := { s.part with
                plates := t.part.plates, slots := t.part.slots, orphans := t.part.orphans, reports := t.part.reports
                units := t.part.units, mem := t.part.mem, port := t.part.port } }
        ∧ s.part.keptHostMemory t.part)
    ∧ (x.state = .exposing → c.ready = [] → (∀ w : Fin 16, s.part.windows[w].state ≠ .closing) →
      ∃ t, exec (.cancel n) s = .next t
        ∧ t.part.plates = s.part.plates.set n
            { x with
              state := .cancelled
              res := unpinned
              summary := { x.summary with endTick := s.part.tick, checksum := ~~~ c.checksum, valid := false } }
        ∧ t.part.channels = s.part.channels.set k
            { c with
              state := .draining
              queue := c.queue.filter (· != n)
              inHand := c.inHand.map fun h =>
                if h.prepared then
                  { h with live := false, stage := .composition, snapshot := s.part.snapshot c.cursors h }
                else { h with live := false, held := s.part.snapshot c.cursors h }
              cursors := if c.inHand = none then [] else c.cursors }
        ∧ (∀ h h', c.inHand = some h → h.prepared = true → h.live = true → t.part.channels[k].inHand = some h' →
            t.part.compose k h' t.tiles = s.part.compose k h s.tiles)
        ∧ t.part.sets = (if c.inHand = none then
            s.part.sets.set x.copy.screenSet
              { s.part.sets[x.copy.screenSet] with use := s.part.sets[x.copy.screenSet].use - 1 }
            else s.part.sets)
        ∧ ((∀ i : Fin 4, x.res[i].pinned = false) →
            t.part.reports = s.part.after .plateCancelled
              (.plate { label := x.copy.label, plate := n.val, channel := k.val, cause := 4 }))
        ∧ s.part.ended t.part (.plate n) .done 4
        ∧ t = { s with part := { s.part with
                plates := t.part.plates, channels := t.part.channels, sets := t.part.sets, slots := t.part.slots
                orphans := t.part.orphans, reports := t.part.reports, units := t.part.units, mem := t.part.mem
                port := t.part.port } }
        ∧ s.part.keptHostMemory t.part)

/-- RELEASE (R121): a plate that is not armed is FREE with everything cleared, and DONE, whose detail no rule states
(log 5); an armed one is IN_USE with its state and nothing changes. -/
def Obligations.Release : Prop :=
  ∀ (s : State) (n : Fin 64), s.runs (.plate n) (some .release) →
    (s.part.plates[n].state.armed = false →
      ∃ t detail, exec (.release n) s = .next t
        ∧ t.part.plates = s.part.plates.set n {}
        ∧ s.part.ended t.part (.plate n) .done detail
        ∧ t = { s with part := { s.part with plates := t.part.plates, units := t.part.units
                                             freeReads := t.part.freeReads, mem := t.part.mem
                                             port := t.part.port } }
        ∧ s.part.keptOutside t.part [plateRange n])
    ∧ (s.part.plates[n].state.armed = true →
      ∃ t, exec (.release n) s = .next t
        ∧ s.part.ended t.part (.plate n) .inUse (BitVec.ofNat 32 s.part.plates[n].state.code)
        ∧ t = { s with part := { s.part with units := t.part.units, mem := t.part.mem, port := t.part.port } }
        ∧ s.part.keptOutside t.part [resultRange (.plate n)])

/-! ## Directory commands (2.10) -/

/-- DISCARD_PAGE and DISCARD_EDITION (R45, R46): the slots and WAITING orphans of the page versions named, or of the
edition; a separation or a page out of range refuses a DISCARD_PAGE, whose detail no rule states (log 5). That a freed slot's change
number advances by one (timer stop and freeing in one mirror write) is log 14 (DEDUCED, unsafe). -/
def Obligations.Discard : Prop :=
  ∀ s : State,
    let f := parseDirectory (s.part.copyOf .directory)
    let page := fun (id : Identity) (version : Nat) =>
      id == { edition := f.edition, zone := f.zone, page := f.page, sep := f.sep }
        && (f.version == 0 || f.version == version)
    let edition := fun (id : Identity) (_ : Nat) => id.edition == f.edition
    (s.runs .directory (some .discardPage) → f.sep ≤ 3 → 1 ≤ f.page → f.page ≤ 999 →
      ∃ t, exec .discardPage s = .next t ∧ s.part.discarded t.part page
        ∧ t = { s with part := { s.part with
                slots := t.part.slots, orphans := t.part.orphans, reports := t.part.reports, units := t.part.units
                mem := t.part.mem, port := t.part.port } }
        ∧ s.part.keptHostMemory t.part)
    ∧ (s.runs .directory (some .discardPage) → 3 < f.sep ∨ f.page < 1 ∨ 999 < f.page →
      ∃ t detail, exec .discardPage s = .next t ∧ s.part.ended t.part .directory .badParam detail
        ∧ t = { s with part := { s.part with units := t.part.units, freeReads := t.part.freeReads
                                             mem := t.part.mem, port := t.part.port } }
        ∧ s.part.keptOutside t.part [resultRange .directory])
    ∧ (s.runs .directory (some .discardEdition) →
      ∃ t, exec .discardEdition s = .next t ∧ s.part.discarded t.part edition
        ∧ t = { s with part := { s.part with
                slots := t.part.slots, orphans := t.part.orphans, reports := t.part.reports, units := t.part.units
                mem := t.part.mem, port := t.part.port } }
        ∧ s.part.keptHostMemory t.part)

/-- CLEAR_COUNTERS (R47): the four damage counters and the five counters of each stream are 0; slots, orphans and filter
hit counts stay. DONE, its detail stated by no rule (log 5). -/
def Obligations.ClearCounters : Prop :=
  ∀ s : State, s.runs .directory (some .clearCounters) →
    ∃ t detail, exec .clearCounters s = .next t
      ∧ t.part.reports = { s.part.reports with damage := Vector.replicate 4 0 }
      ∧ (∀ k : Fin 4, t.part.parsers[k]
          = { s.part.parsers[k] with filed := 0, rejected := 0, strays := 0, resyncs := 0, late := 0 })
      ∧ s.part.ended t.part .directory .done detail
      ∧ t = { s with part := { s.part with
              reports := t.part.reports, parsers := t.part.parsers, units := t.part.units
              freeReads := t.part.freeReads, mem := t.part.mem, port := t.part.port } }
      ∧ s.part.keptOutside t.part [headerRange, resultRange .directory]

/-! ## Arithmetic of the screen unit (4.5) -/

/-- The transfer of a sample v = 16 i + f (R80, R81, R82): the curve, the trim, the anchors and the clamps, with the
bounds and roundings the rules give. -/
def Obligations.TransferStages : Prop :=
  ∀ (points : Vector Nat 17) (trim minDot maxDot : Nat) (i f : Fin 16),
    (∀ k : Fin 17, points[k] ≤ 4095) → trim ≤ 256 → minDot ≤ maxDot → maxDot ≤ 4095 →
    let v : Fin 256 := ⟨16 * i.val + f.val, by omega⟩
    let lo : Int := points[i.val]
    let hi : Int := points[i.val + 1]
    let d := hi - lo
    let t := curveStage points v
    let w := trimStage t trim
    let u := transferValue points trim minDot maxDot v
    (t = lo + (d * f.val + 8) / 16 ∧ (f.val = 0 → t = lo) ∧ min lo hi ≤ t ∧ t ≤ max lo hi ∧ 0 ≤ t ∧ t ≤ 4095
      ∧ d * f.val - 8 < 16 * (t - lo) ∧ 16 * (t - lo) ≤ d * f.val + 8)
    ∧ (w = (t * trim + 128) / 256 ∧ (trim = 256 → w = t) ∧ (trim = 0 → w = 0) ∧ 0 ≤ w ∧ w ≤ 4095
      ∧ t * trim - 128 < 256 * w ∧ 256 * w ≤ t * trim + 128)
    ∧ (v.val = 0 → u = 0) ∧ (v.val = 255 → u = 4095)
    ∧ (1 ≤ v.val → v.val ≤ 254 → (u : Int) = min (max w minDot) maxDot ∧ minDot ≤ u ∧ u ≤ maxDot)
    ∧ u ≤ 4095
    ∧ ∀ threshold, 1 ≤ threshold → threshold ≤ 4095 →
        (v.val = 0 → ¬ threshold ≤ u) ∧ (v.val = 255 → threshold ≤ u)

/-! ## Laws of every run -/

/-- Every step keeps the canonical form of board memory and tile memory, every threshold in 1 to 4095 (R86), and the
bounds of the report unit (R191, R194, R196), of the orphan queue (R40) and of the channel queues (R112); while RESETn is
low no transaction is in flight (R184). Each of these is kept by itself. -/
def Obligations.EveryStepKeepsTheBounds : Prop :=
  ∀ s t : State, step s = .next t →
    (s.storesWf → t.storesWf)
    ∧ (s.thresholdsInRange → t.thresholdsInRange)
    ∧ (s.part.orphansBounded → t.part.orphansBounded)
    ∧ (s.part.holdBounded → t.part.holdBounded)
    ∧ (s.part.reports.readBounded → t.part.reports.readBounded)
    ∧ (s.part.reports.countsInRange → t.part.reports.countsInRange)
    ∧ (s.part.queuesBounded → t.part.queuesBounded)
    ∧ (s.silentInReset → t.silentInReset)

/-- Every step keeps the law of current slots (R30): at most one current slot for each page identity, every other in-use
slot of it SUPERSEDED and of a lower version. -/
def Obligations.EveryStepKeepsTheLawOfCurrentSlots : Prop :=
  ∀ s t : State, step s = .next t → s.part.currentSlots → t.part.currentSlots

/-- Outside the part-owned lines of the control area no byte of board memory changes but in the block of a forwarded
write (R167, R176). -/
def Obligations.HostMemoryChangesByForwardedWritesOnly : Prop :=
  ∀ (c : Instr) (s t : State) (a : Nat), exec c s = .next t → ¬ s.part.ownedAt a →
    (∀ w, c = .upstreamWriteBlock w ∨ c = .bodyWrite w → a < w.addr.toNat ∨ w.addr.toNat + 64 ≤ a) →
    (∀ k d st l, c = .readCountWrite k d st l → a < s.part.base + 0x40 ∨ s.part.base + 0x80 ≤ a) →
    t.part.mem.read a = s.part.mem.read a

/-- The invariants of the two statements above hold right after hard reset. -/
def Obligations.InvariantsHoldAtReset : Prop :=
  let s := State.reset
  s.storesWf ∧ s.thresholdsInRange ∧ s.part.orphansBounded ∧ s.part.holdBounded ∧ s.part.reports.readBounded
    ∧ s.part.reports.countsInRange ∧ s.part.queuesBounded ∧ s.silentInReset ∧ s.part.currentSlots

/-- A span list that the validator finds GOOD is decoded line by line without a break (R52, R53, R59): every line of the
band can be produced, its spans in order with a gap between them and within the page's width. -/
def Obligations.GoodSpanListsDecode : Prop :=
  ∀ (width lineCount : Nat) (payload : List Byte) (band : Fin 64) (cap : Capture) (j : Nat),
    spanVerdict width lineCount payload = .good → j < lineCount →
    let b := ({ band := band, cap := cap : OpenBand }).seek width lineCount payload j
    b.broken = false ∧ b.line = some j
      ∧ (∀ x ∈ b.spans, x.1 < x.2 ∧ x.2 ≤ width) ∧ b.spans.Pairwise (fun x y => x.2 < y.1)

end
end

