-- ==== Sys2Proof/Laws/State.lean ====
section
/-! SUPPORT. What each writer of a table of the part leaves as it was: one lemma for each field and writer. -/

namespace Sys2Proof.Machine


/-! ## setSlot -/

@[simp] theorem Part.setSlot_cabase (p : Part) (n : Fin 512) (x : Slot) : (p.setSlot n x).cabase = p.cabase := rfl
@[simp] theorem Part.setSlot_tkdiv (p : Part) (n : Fin 512) (x : Slot) : (p.setSlot n x).tkdiv = p.tkdiv := rfl
@[simp] theorem Part.setSlot_sweep (p : Part) (n : Fin 512) (x : Slot) : (p.setSlot n x).sweep = p.sweep := rfl
@[simp] theorem Part.setSlot_tick (p : Part) (n : Fin 512) (x : Slot) : (p.setSlot n x).tick = p.tick := rfl
@[simp] theorem Part.setSlot_mem (p : Part) (n : Fin 512) (x : Slot) : (p.setSlot n x).mem = p.mem := rfl
@[simp] theorem Part.setSlot_port (p : Part) (n : Fin 512) (x : Slot) : (p.setSlot n x).port = p.port := rfl
@[simp] theorem Part.setSlot_freeReads (p : Part) (n : Fin 512) (x : Slot) : (p.setSlot n x).freeReads = p.freeReads := rfl
@[simp] theorem Part.setSlot_reports (p : Part) (n : Fin 512) (x : Slot) : (p.setSlot n x).reports = p.reports := rfl
@[simp] theorem Part.setSlot_params (p : Part) (n : Fin 512) (x : Slot) : (p.setSlot n x).params = p.params := rfl
@[simp] theorem Part.setSlot_units (p : Part) (n : Fin 512) (x : Slot) : (p.setSlot n x).units = p.units := rfl
@[simp] theorem Part.setSlot_windows (p : Part) (n : Fin 512) (x : Slot) : (p.setSlot n x).windows = p.windows := rfl
@[simp] theorem Part.setSlot_filters (p : Part) (n : Fin 512) (x : Slot) : (p.setSlot n x).filters = p.filters := rfl
@[simp] theorem Part.setSlot_parsers (p : Part) (n : Fin 512) (x : Slot) : (p.setSlot n x).parsers = p.parsers := rfl
@[simp] theorem Part.setSlot_transit (p : Part) (n : Fin 512) (x : Slot) : (p.setSlot n x).transit = p.transit := rfl
@[simp] theorem Part.setSlot_orphans (p : Part) (n : Fin 512) (x : Slot) : (p.setSlot n x).orphans = p.orphans := rfl
@[simp] theorem Part.setSlot_plates (p : Part) (n : Fin 512) (x : Slot) : (p.setSlot n x).plates = p.plates := rfl
@[simp] theorem Part.setSlot_channels (p : Part) (n : Fin 512) (x : Slot) : (p.setSlot n x).channels = p.channels := rfl
@[simp] theorem Part.setSlot_sets (p : Part) (n : Fin 512) (x : Slot) : (p.setSlot n x).sets = p.sets := rfl
@[simp] theorem Part.setSlot_owners (p : Part) (n : Fin 512) (x : Slot) : (p.setSlot n x).owners = p.owners := rfl
@[simp] theorem Part.setSlot_get (p : Part) (n : Fin 512) (x : Slot) : (p.setSlot n x).slots[n] = x := by simp [Part.setSlot]
theorem Part.setSlot_get_ne (p : Part) (n : Fin 512) (x : Slot) (m : Fin 512) (h : m ≠ n) : (p.setSlot n x).slots[m] = p.slots[m] := by
  have : n.val ≠ m.val := fun e => h (Fin.ext e.symm)
  simp [Part.setSlot, this]

/-! ## setPlate -/

@[simp] theorem Part.setPlate_cabase (p : Part) (n : Fin 64) (x : Plate) : (p.setPlate n x).cabase = p.cabase := rfl
@[simp] theorem Part.setPlate_tkdiv (p : Part) (n : Fin 64) (x : Plate) : (p.setPlate n x).tkdiv = p.tkdiv := rfl
@[simp] theorem Part.setPlate_sweep (p : Part) (n : Fin 64) (x : Plate) : (p.setPlate n x).sweep = p.sweep := rfl
@[simp] theorem Part.setPlate_tick (p : Part) (n : Fin 64) (x : Plate) : (p.setPlate n x).tick = p.tick := rfl
@[simp] theorem Part.setPlate_mem (p : Part) (n : Fin 64) (x : Plate) : (p.setPlate n x).mem = p.mem := rfl
@[simp] theorem Part.setPlate_port (p : Part) (n : Fin 64) (x : Plate) : (p.setPlate n x).port = p.port := rfl
@[simp] theorem Part.setPlate_freeReads (p : Part) (n : Fin 64) (x : Plate) : (p.setPlate n x).freeReads = p.freeReads := rfl
@[simp] theorem Part.setPlate_reports (p : Part) (n : Fin 64) (x : Plate) : (p.setPlate n x).reports = p.reports := rfl
@[simp] theorem Part.setPlate_params (p : Part) (n : Fin 64) (x : Plate) : (p.setPlate n x).params = p.params := rfl
@[simp] theorem Part.setPlate_units (p : Part) (n : Fin 64) (x : Plate) : (p.setPlate n x).units = p.units := rfl
@[simp] theorem Part.setPlate_windows (p : Part) (n : Fin 64) (x : Plate) : (p.setPlate n x).windows = p.windows := rfl
@[simp] theorem Part.setPlate_filters (p : Part) (n : Fin 64) (x : Plate) : (p.setPlate n x).filters = p.filters := rfl
@[simp] theorem Part.setPlate_parsers (p : Part) (n : Fin 64) (x : Plate) : (p.setPlate n x).parsers = p.parsers := rfl
@[simp] theorem Part.setPlate_transit (p : Part) (n : Fin 64) (x : Plate) : (p.setPlate n x).transit = p.transit := rfl
@[simp] theorem Part.setPlate_slots (p : Part) (n : Fin 64) (x : Plate) : (p.setPlate n x).slots = p.slots := rfl
@[simp] theorem Part.setPlate_orphans (p : Part) (n : Fin 64) (x : Plate) : (p.setPlate n x).orphans = p.orphans := rfl
@[simp] theorem Part.setPlate_channels (p : Part) (n : Fin 64) (x : Plate) : (p.setPlate n x).channels = p.channels := rfl
@[simp] theorem Part.setPlate_sets (p : Part) (n : Fin 64) (x : Plate) : (p.setPlate n x).sets = p.sets := rfl
@[simp] theorem Part.setPlate_owners (p : Part) (n : Fin 64) (x : Plate) : (p.setPlate n x).owners = p.owners := rfl
@[simp] theorem Part.setPlate_get (p : Part) (n : Fin 64) (x : Plate) : (p.setPlate n x).plates[n] = x := by simp [Part.setPlate]
theorem Part.setPlate_get_ne (p : Part) (n : Fin 64) (x : Plate) (m : Fin 64) (h : m ≠ n) : (p.setPlate n x).plates[m] = p.plates[m] := by
  have : n.val ≠ m.val := fun e => h (Fin.ext e.symm)
  simp [Part.setPlate, this]

/-! ## setChannel -/

@[simp] theorem Part.setChannel_cabase (p : Part) (k : Fin 2) (x : Channel) : (p.setChannel k x).cabase = p.cabase := rfl
@[simp] theorem Part.setChannel_tkdiv (p : Part) (k : Fin 2) (x : Channel) : (p.setChannel k x).tkdiv = p.tkdiv := rfl
@[simp] theorem Part.setChannel_sweep (p : Part) (k : Fin 2) (x : Channel) : (p.setChannel k x).sweep = p.sweep := rfl
@[simp] theorem Part.setChannel_tick (p : Part) (k : Fin 2) (x : Channel) : (p.setChannel k x).tick = p.tick := rfl
@[simp] theorem Part.setChannel_mem (p : Part) (k : Fin 2) (x : Channel) : (p.setChannel k x).mem = p.mem := rfl
@[simp] theorem Part.setChannel_port (p : Part) (k : Fin 2) (x : Channel) : (p.setChannel k x).port = p.port := rfl
@[simp] theorem Part.setChannel_freeReads (p : Part) (k : Fin 2) (x : Channel) : (p.setChannel k x).freeReads = p.freeReads := rfl
@[simp] theorem Part.setChannel_reports (p : Part) (k : Fin 2) (x : Channel) : (p.setChannel k x).reports = p.reports := rfl
@[simp] theorem Part.setChannel_params (p : Part) (k : Fin 2) (x : Channel) : (p.setChannel k x).params = p.params := rfl
@[simp] theorem Part.setChannel_units (p : Part) (k : Fin 2) (x : Channel) : (p.setChannel k x).units = p.units := rfl
@[simp] theorem Part.setChannel_windows (p : Part) (k : Fin 2) (x : Channel) : (p.setChannel k x).windows = p.windows := rfl
@[simp] theorem Part.setChannel_filters (p : Part) (k : Fin 2) (x : Channel) : (p.setChannel k x).filters = p.filters := rfl
@[simp] theorem Part.setChannel_parsers (p : Part) (k : Fin 2) (x : Channel) : (p.setChannel k x).parsers = p.parsers := rfl
@[simp] theorem Part.setChannel_transit (p : Part) (k : Fin 2) (x : Channel) : (p.setChannel k x).transit = p.transit := rfl
@[simp] theorem Part.setChannel_slots (p : Part) (k : Fin 2) (x : Channel) : (p.setChannel k x).slots = p.slots := rfl
@[simp] theorem Part.setChannel_orphans (p : Part) (k : Fin 2) (x : Channel) : (p.setChannel k x).orphans = p.orphans := rfl
@[simp] theorem Part.setChannel_plates (p : Part) (k : Fin 2) (x : Channel) : (p.setChannel k x).plates = p.plates := rfl
@[simp] theorem Part.setChannel_sets (p : Part) (k : Fin 2) (x : Channel) : (p.setChannel k x).sets = p.sets := rfl
@[simp] theorem Part.setChannel_owners (p : Part) (k : Fin 2) (x : Channel) : (p.setChannel k x).owners = p.owners := rfl
@[simp] theorem Part.setChannel_get (p : Part) (k : Fin 2) (x : Channel) : (p.setChannel k x).channels[k] = x := by simp [Part.setChannel]
theorem Part.setChannel_get_ne (p : Part) (k : Fin 2) (x : Channel) (m : Fin 2) (h : m ≠ k) : (p.setChannel k x).channels[m] = p.channels[m] := by
  have : k.val ≠ m.val := fun e => h (Fin.ext e.symm)
  simp [Part.setChannel, this]

/-! ## setSet -/

@[simp] theorem Part.setSet_cabase (p : Part) (n : Fin 8) (x : ScreenSet) : (p.setSet n x).cabase = p.cabase := rfl
@[simp] theorem Part.setSet_tkdiv (p : Part) (n : Fin 8) (x : ScreenSet) : (p.setSet n x).tkdiv = p.tkdiv := rfl
@[simp] theorem Part.setSet_sweep (p : Part) (n : Fin 8) (x : ScreenSet) : (p.setSet n x).sweep = p.sweep := rfl
@[simp] theorem Part.setSet_tick (p : Part) (n : Fin 8) (x : ScreenSet) : (p.setSet n x).tick = p.tick := rfl
@[simp] theorem Part.setSet_mem (p : Part) (n : Fin 8) (x : ScreenSet) : (p.setSet n x).mem = p.mem := rfl
@[simp] theorem Part.setSet_port (p : Part) (n : Fin 8) (x : ScreenSet) : (p.setSet n x).port = p.port := rfl
@[simp] theorem Part.setSet_freeReads (p : Part) (n : Fin 8) (x : ScreenSet) : (p.setSet n x).freeReads = p.freeReads := rfl
@[simp] theorem Part.setSet_reports (p : Part) (n : Fin 8) (x : ScreenSet) : (p.setSet n x).reports = p.reports := rfl
@[simp] theorem Part.setSet_params (p : Part) (n : Fin 8) (x : ScreenSet) : (p.setSet n x).params = p.params := rfl
@[simp] theorem Part.setSet_units (p : Part) (n : Fin 8) (x : ScreenSet) : (p.setSet n x).units = p.units := rfl
@[simp] theorem Part.setSet_windows (p : Part) (n : Fin 8) (x : ScreenSet) : (p.setSet n x).windows = p.windows := rfl
@[simp] theorem Part.setSet_filters (p : Part) (n : Fin 8) (x : ScreenSet) : (p.setSet n x).filters = p.filters := rfl
@[simp] theorem Part.setSet_parsers (p : Part) (n : Fin 8) (x : ScreenSet) : (p.setSet n x).parsers = p.parsers := rfl
@[simp] theorem Part.setSet_transit (p : Part) (n : Fin 8) (x : ScreenSet) : (p.setSet n x).transit = p.transit := rfl
@[simp] theorem Part.setSet_slots (p : Part) (n : Fin 8) (x : ScreenSet) : (p.setSet n x).slots = p.slots := rfl
@[simp] theorem Part.setSet_orphans (p : Part) (n : Fin 8) (x : ScreenSet) : (p.setSet n x).orphans = p.orphans := rfl
@[simp] theorem Part.setSet_plates (p : Part) (n : Fin 8) (x : ScreenSet) : (p.setSet n x).plates = p.plates := rfl
@[simp] theorem Part.setSet_channels (p : Part) (n : Fin 8) (x : ScreenSet) : (p.setSet n x).channels = p.channels := rfl
@[simp] theorem Part.setSet_owners (p : Part) (n : Fin 8) (x : ScreenSet) : (p.setSet n x).owners = p.owners := rfl
@[simp] theorem Part.setSet_get (p : Part) (n : Fin 8) (x : ScreenSet) : (p.setSet n x).sets[n] = x := by simp [Part.setSet]
theorem Part.setSet_get_ne (p : Part) (n : Fin 8) (x : ScreenSet) (m : Fin 8) (h : m ≠ n) : (p.setSet n x).sets[m] = p.sets[m] := by
  have : n.val ≠ m.val := fun e => h (Fin.ext e.symm)
  simp [Part.setSet, this]

/-! ## setWindow -/

@[simp] theorem Part.setWindow_cabase (p : Part) (n : Fin 16) (x : Window) : (p.setWindow n x).cabase = p.cabase := rfl
@[simp] theorem Part.setWindow_tkdiv (p : Part) (n : Fin 16) (x : Window) : (p.setWindow n x).tkdiv = p.tkdiv := rfl
@[simp] theorem Part.setWindow_sweep (p : Part) (n : Fin 16) (x : Window) : (p.setWindow n x).sweep = p.sweep := rfl
@[simp] theorem Part.setWindow_tick (p : Part) (n : Fin 16) (x : Window) : (p.setWindow n x).tick = p.tick := rfl
@[simp] theorem Part.setWindow_mem (p : Part) (n : Fin 16) (x : Window) : (p.setWindow n x).mem = p.mem := rfl
@[simp] theorem Part.setWindow_port (p : Part) (n : Fin 16) (x : Window) : (p.setWindow n x).port = p.port := rfl
@[simp] theorem Part.setWindow_freeReads (p : Part) (n : Fin 16) (x : Window) : (p.setWindow n x).freeReads = p.freeReads := rfl
@[simp] theorem Part.setWindow_reports (p : Part) (n : Fin 16) (x : Window) : (p.setWindow n x).reports = p.reports := rfl
@[simp] theorem Part.setWindow_params (p : Part) (n : Fin 16) (x : Window) : (p.setWindow n x).params = p.params := rfl
@[simp] theorem Part.setWindow_units (p : Part) (n : Fin 16) (x : Window) : (p.setWindow n x).units = p.units := rfl
@[simp] theorem Part.setWindow_filters (p : Part) (n : Fin 16) (x : Window) : (p.setWindow n x).filters = p.filters := rfl
@[simp] theorem Part.setWindow_parsers (p : Part) (n : Fin 16) (x : Window) : (p.setWindow n x).parsers = p.parsers := rfl
@[simp] theorem Part.setWindow_transit (p : Part) (n : Fin 16) (x : Window) : (p.setWindow n x).transit = p.transit := rfl
@[simp] theorem Part.setWindow_slots (p : Part) (n : Fin 16) (x : Window) : (p.setWindow n x).slots = p.slots := rfl
@[simp] theorem Part.setWindow_orphans (p : Part) (n : Fin 16) (x : Window) : (p.setWindow n x).orphans = p.orphans := rfl
@[simp] theorem Part.setWindow_plates (p : Part) (n : Fin 16) (x : Window) : (p.setWindow n x).plates = p.plates := rfl
@[simp] theorem Part.setWindow_channels (p : Part) (n : Fin 16) (x : Window) : (p.setWindow n x).channels = p.channels := rfl
@[simp] theorem Part.setWindow_sets (p : Part) (n : Fin 16) (x : Window) : (p.setWindow n x).sets = p.sets := rfl
@[simp] theorem Part.setWindow_owners (p : Part) (n : Fin 16) (x : Window) : (p.setWindow n x).owners = p.owners := rfl
@[simp] theorem Part.setWindow_get (p : Part) (n : Fin 16) (x : Window) : (p.setWindow n x).windows[n] = x := by simp [Part.setWindow]
theorem Part.setWindow_get_ne (p : Part) (n : Fin 16) (x : Window) (m : Fin 16) (h : m ≠ n) : (p.setWindow n x).windows[m] = p.windows[m] := by
  have : n.val ≠ m.val := fun e => h (Fin.ext e.symm)
  simp [Part.setWindow, this]

/-! ## setFilter -/

@[simp] theorem Part.setFilter_cabase (p : Part) (n : Fin 16) (x : FilterEntry) : (p.setFilter n x).cabase = p.cabase := rfl
@[simp] theorem Part.setFilter_tkdiv (p : Part) (n : Fin 16) (x : FilterEntry) : (p.setFilter n x).tkdiv = p.tkdiv := rfl
@[simp] theorem Part.setFilter_sweep (p : Part) (n : Fin 16) (x : FilterEntry) : (p.setFilter n x).sweep = p.sweep := rfl
@[simp] theorem Part.setFilter_tick (p : Part) (n : Fin 16) (x : FilterEntry) : (p.setFilter n x).tick = p.tick := rfl
@[simp] theorem Part.setFilter_mem (p : Part) (n : Fin 16) (x : FilterEntry) : (p.setFilter n x).mem = p.mem := rfl
@[simp] theorem Part.setFilter_port (p : Part) (n : Fin 16) (x : FilterEntry) : (p.setFilter n x).port = p.port := rfl
@[simp] theorem Part.setFilter_freeReads (p : Part) (n : Fin 16) (x : FilterEntry) : (p.setFilter n x).freeReads = p.freeReads := rfl
@[simp] theorem Part.setFilter_reports (p : Part) (n : Fin 16) (x : FilterEntry) : (p.setFilter n x).reports = p.reports := rfl
@[simp] theorem Part.setFilter_params (p : Part) (n : Fin 16) (x : FilterEntry) : (p.setFilter n x).params = p.params := rfl
@[simp] theorem Part.setFilter_units (p : Part) (n : Fin 16) (x : FilterEntry) : (p.setFilter n x).units = p.units := rfl
@[simp] theorem Part.setFilter_windows (p : Part) (n : Fin 16) (x : FilterEntry) : (p.setFilter n x).windows = p.windows := rfl
@[simp] theorem Part.setFilter_parsers (p : Part) (n : Fin 16) (x : FilterEntry) : (p.setFilter n x).parsers = p.parsers := rfl
@[simp] theorem Part.setFilter_transit (p : Part) (n : Fin 16) (x : FilterEntry) : (p.setFilter n x).transit = p.transit := rfl
@[simp] theorem Part.setFilter_slots (p : Part) (n : Fin 16) (x : FilterEntry) : (p.setFilter n x).slots = p.slots := rfl
@[simp] theorem Part.setFilter_orphans (p : Part) (n : Fin 16) (x : FilterEntry) : (p.setFilter n x).orphans = p.orphans := rfl
@[simp] theorem Part.setFilter_plates (p : Part) (n : Fin 16) (x : FilterEntry) : (p.setFilter n x).plates = p.plates := rfl
@[simp] theorem Part.setFilter_channels (p : Part) (n : Fin 16) (x : FilterEntry) : (p.setFilter n x).channels = p.channels := rfl
@[simp] theorem Part.setFilter_sets (p : Part) (n : Fin 16) (x : FilterEntry) : (p.setFilter n x).sets = p.sets := rfl
@[simp] theorem Part.setFilter_owners (p : Part) (n : Fin 16) (x : FilterEntry) : (p.setFilter n x).owners = p.owners := rfl
@[simp] theorem Part.setFilter_get (p : Part) (n : Fin 16) (x : FilterEntry) : (p.setFilter n x).filters[n] = x := by simp [Part.setFilter]
theorem Part.setFilter_get_ne (p : Part) (n : Fin 16) (x : FilterEntry) (m : Fin 16) (h : m ≠ n) : (p.setFilter n x).filters[m] = p.filters[m] := by
  have : n.val ≠ m.val := fun e => h (Fin.ext e.symm)
  simp [Part.setFilter, this]

/-! ## setParser -/

@[simp] theorem Part.setParser_cabase (p : Part) (k : Fin 4) (x : Parser) : (p.setParser k x).cabase = p.cabase := rfl
@[simp] theorem Part.setParser_tkdiv (p : Part) (k : Fin 4) (x : Parser) : (p.setParser k x).tkdiv = p.tkdiv := rfl
@[simp] theorem Part.setParser_sweep (p : Part) (k : Fin 4) (x : Parser) : (p.setParser k x).sweep = p.sweep := rfl
@[simp] theorem Part.setParser_tick (p : Part) (k : Fin 4) (x : Parser) : (p.setParser k x).tick = p.tick := rfl
@[simp] theorem Part.setParser_mem (p : Part) (k : Fin 4) (x : Parser) : (p.setParser k x).mem = p.mem := rfl
@[simp] theorem Part.setParser_port (p : Part) (k : Fin 4) (x : Parser) : (p.setParser k x).port = p.port := rfl
@[simp] theorem Part.setParser_freeReads (p : Part) (k : Fin 4) (x : Parser) : (p.setParser k x).freeReads = p.freeReads := rfl
@[simp] theorem Part.setParser_reports (p : Part) (k : Fin 4) (x : Parser) : (p.setParser k x).reports = p.reports := rfl
@[simp] theorem Part.setParser_params (p : Part) (k : Fin 4) (x : Parser) : (p.setParser k x).params = p.params := rfl
@[simp] theorem Part.setParser_units (p : Part) (k : Fin 4) (x : Parser) : (p.setParser k x).units = p.units := rfl
@[simp] theorem Part.setParser_windows (p : Part) (k : Fin 4) (x : Parser) : (p.setParser k x).windows = p.windows := rfl
@[simp] theorem Part.setParser_filters (p : Part) (k : Fin 4) (x : Parser) : (p.setParser k x).filters = p.filters := rfl
@[simp] theorem Part.setParser_transit (p : Part) (k : Fin 4) (x : Parser) : (p.setParser k x).transit = p.transit := rfl
@[simp] theorem Part.setParser_slots (p : Part) (k : Fin 4) (x : Parser) : (p.setParser k x).slots = p.slots := rfl
@[simp] theorem Part.setParser_orphans (p : Part) (k : Fin 4) (x : Parser) : (p.setParser k x).orphans = p.orphans := rfl
@[simp] theorem Part.setParser_plates (p : Part) (k : Fin 4) (x : Parser) : (p.setParser k x).plates = p.plates := rfl
@[simp] theorem Part.setParser_channels (p : Part) (k : Fin 4) (x : Parser) : (p.setParser k x).channels = p.channels := rfl
@[simp] theorem Part.setParser_sets (p : Part) (k : Fin 4) (x : Parser) : (p.setParser k x).sets = p.sets := rfl
@[simp] theorem Part.setParser_owners (p : Part) (k : Fin 4) (x : Parser) : (p.setParser k x).owners = p.owners := rfl
@[simp] theorem Part.setParser_get (p : Part) (k : Fin 4) (x : Parser) : (p.setParser k x).parsers[k] = x := by simp [Part.setParser]
theorem Part.setParser_get_ne (p : Part) (k : Fin 4) (x : Parser) (m : Fin 4) (h : m ≠ k) : (p.setParser k x).parsers[m] = p.parsers[m] := by
  have : k.val ≠ m.val := fun e => h (Fin.ext e.symm)
  simp [Part.setParser, this]

/-! ## setUnit -/

@[simp] theorem Part.setUnit_cabase (p : Part) (i : Fin 106) (x : CmdUnit) : (p.setUnit i x).cabase = p.cabase := rfl
@[simp] theorem Part.setUnit_tkdiv (p : Part) (i : Fin 106) (x : CmdUnit) : (p.setUnit i x).tkdiv = p.tkdiv := rfl
@[simp] theorem Part.setUnit_sweep (p : Part) (i : Fin 106) (x : CmdUnit) : (p.setUnit i x).sweep = p.sweep := rfl
@[simp] theorem Part.setUnit_tick (p : Part) (i : Fin 106) (x : CmdUnit) : (p.setUnit i x).tick = p.tick := rfl
@[simp] theorem Part.setUnit_mem (p : Part) (i : Fin 106) (x : CmdUnit) : (p.setUnit i x).mem = p.mem := rfl
@[simp] theorem Part.setUnit_port (p : Part) (i : Fin 106) (x : CmdUnit) : (p.setUnit i x).port = p.port := rfl
@[simp] theorem Part.setUnit_freeReads (p : Part) (i : Fin 106) (x : CmdUnit) : (p.setUnit i x).freeReads = p.freeReads := rfl
@[simp] theorem Part.setUnit_reports (p : Part) (i : Fin 106) (x : CmdUnit) : (p.setUnit i x).reports = p.reports := rfl
@[simp] theorem Part.setUnit_params (p : Part) (i : Fin 106) (x : CmdUnit) : (p.setUnit i x).params = p.params := rfl
@[simp] theorem Part.setUnit_windows (p : Part) (i : Fin 106) (x : CmdUnit) : (p.setUnit i x).windows = p.windows := rfl
@[simp] theorem Part.setUnit_filters (p : Part) (i : Fin 106) (x : CmdUnit) : (p.setUnit i x).filters = p.filters := rfl
@[simp] theorem Part.setUnit_parsers (p : Part) (i : Fin 106) (x : CmdUnit) : (p.setUnit i x).parsers = p.parsers := rfl
@[simp] theorem Part.setUnit_transit (p : Part) (i : Fin 106) (x : CmdUnit) : (p.setUnit i x).transit = p.transit := rfl
@[simp] theorem Part.setUnit_slots (p : Part) (i : Fin 106) (x : CmdUnit) : (p.setUnit i x).slots = p.slots := rfl
@[simp] theorem Part.setUnit_orphans (p : Part) (i : Fin 106) (x : CmdUnit) : (p.setUnit i x).orphans = p.orphans := rfl
@[simp] theorem Part.setUnit_plates (p : Part) (i : Fin 106) (x : CmdUnit) : (p.setUnit i x).plates = p.plates := rfl
@[simp] theorem Part.setUnit_channels (p : Part) (i : Fin 106) (x : CmdUnit) : (p.setUnit i x).channels = p.channels := rfl
@[simp] theorem Part.setUnit_sets (p : Part) (i : Fin 106) (x : CmdUnit) : (p.setUnit i x).sets = p.sets := rfl
@[simp] theorem Part.setUnit_owners (p : Part) (i : Fin 106) (x : CmdUnit) : (p.setUnit i x).owners = p.owners := rfl
@[simp] theorem Part.setUnit_get (p : Part) (i : Fin 106) (x : CmdUnit) : (p.setUnit i x).units[i] = x := by simp [Part.setUnit]
theorem Part.setUnit_get_ne (p : Part) (i : Fin 106) (x : CmdUnit) (m : Fin 106) (h : m ≠ i) : (p.setUnit i x).units[m] = p.units[m] := by
  have : i.val ≠ m.val := fun e => h (Fin.ext e.symm)
  simp [Part.setUnit, this]

/-! ## setRecord -/

@[simp] theorem Part.setRecord_cabase (p : Part) (r : RecordId) (x : CmdUnit) : (p.setRecord r x).cabase = p.cabase := rfl
@[simp] theorem Part.setRecord_tkdiv (p : Part) (r : RecordId) (x : CmdUnit) : (p.setRecord r x).tkdiv = p.tkdiv := rfl
@[simp] theorem Part.setRecord_sweep (p : Part) (r : RecordId) (x : CmdUnit) : (p.setRecord r x).sweep = p.sweep := rfl
@[simp] theorem Part.setRecord_tick (p : Part) (r : RecordId) (x : CmdUnit) : (p.setRecord r x).tick = p.tick := rfl
@[simp] theorem Part.setRecord_mem (p : Part) (r : RecordId) (x : CmdUnit) : (p.setRecord r x).mem = p.mem := rfl
@[simp] theorem Part.setRecord_port (p : Part) (r : RecordId) (x : CmdUnit) : (p.setRecord r x).port = p.port := rfl
@[simp] theorem Part.setRecord_freeReads (p : Part) (r : RecordId) (x : CmdUnit) : (p.setRecord r x).freeReads = p.freeReads := rfl
@[simp] theorem Part.setRecord_reports (p : Part) (r : RecordId) (x : CmdUnit) : (p.setRecord r x).reports = p.reports := rfl
@[simp] theorem Part.setRecord_params (p : Part) (r : RecordId) (x : CmdUnit) : (p.setRecord r x).params = p.params := rfl
@[simp] theorem Part.setRecord_windows (p : Part) (r : RecordId) (x : CmdUnit) : (p.setRecord r x).windows = p.windows := rfl
@[simp] theorem Part.setRecord_filters (p : Part) (r : RecordId) (x : CmdUnit) : (p.setRecord r x).filters = p.filters := rfl
@[simp] theorem Part.setRecord_parsers (p : Part) (r : RecordId) (x : CmdUnit) : (p.setRecord r x).parsers = p.parsers := rfl
@[simp] theorem Part.setRecord_transit (p : Part) (r : RecordId) (x : CmdUnit) : (p.setRecord r x).transit = p.transit := rfl
@[simp] theorem Part.setRecord_slots (p : Part) (r : RecordId) (x : CmdUnit) : (p.setRecord r x).slots = p.slots := rfl
@[simp] theorem Part.setRecord_orphans (p : Part) (r : RecordId) (x : CmdUnit) : (p.setRecord r x).orphans = p.orphans := rfl
@[simp] theorem Part.setRecord_plates (p : Part) (r : RecordId) (x : CmdUnit) : (p.setRecord r x).plates = p.plates := rfl
@[simp] theorem Part.setRecord_channels (p : Part) (r : RecordId) (x : CmdUnit) : (p.setRecord r x).channels = p.channels := rfl
@[simp] theorem Part.setRecord_sets (p : Part) (r : RecordId) (x : CmdUnit) : (p.setRecord r x).sets = p.sets := rfl
@[simp] theorem Part.setRecord_owners (p : Part) (r : RecordId) (x : CmdUnit) : (p.setRecord r x).owners = p.owners := rfl

/-! ## setReports -/

@[simp] theorem Part.setReports_cabase (p : Part) (x : ReportUnit) : (p.setReports x).cabase = p.cabase := rfl
@[simp] theorem Part.setReports_tkdiv (p : Part) (x : ReportUnit) : (p.setReports x).tkdiv = p.tkdiv := rfl
@[simp] theorem Part.setReports_sweep (p : Part) (x : ReportUnit) : (p.setReports x).sweep = p.sweep := rfl
@[simp] theorem Part.setReports_tick (p : Part) (x : ReportUnit) : (p.setReports x).tick = p.tick := rfl
@[simp] theorem Part.setReports_mem (p : Part) (x : ReportUnit) : (p.setReports x).mem = p.mem := rfl
@[simp] theorem Part.setReports_port (p : Part) (x : ReportUnit) : (p.setReports x).port = p.port := rfl
@[simp] theorem Part.setReports_freeReads (p : Part) (x : ReportUnit) : (p.setReports x).freeReads = p.freeReads := rfl
@[simp] theorem Part.setReports_params (p : Part) (x : ReportUnit) : (p.setReports x).params = p.params := rfl
@[simp] theorem Part.setReports_units (p : Part) (x : ReportUnit) : (p.setReports x).units = p.units := rfl
@[simp] theorem Part.setReports_windows (p : Part) (x : ReportUnit) : (p.setReports x).windows = p.windows := rfl
@[simp] theorem Part.setReports_filters (p : Part) (x : ReportUnit) : (p.setReports x).filters = p.filters := rfl
@[simp] theorem Part.setReports_parsers (p : Part) (x : ReportUnit) : (p.setReports x).parsers = p.parsers := rfl
@[simp] theorem Part.setReports_transit (p : Part) (x : ReportUnit) : (p.setReports x).transit = p.transit := rfl
@[simp] theorem Part.setReports_slots (p : Part) (x : ReportUnit) : (p.setReports x).slots = p.slots := rfl
@[simp] theorem Part.setReports_orphans (p : Part) (x : ReportUnit) : (p.setReports x).orphans = p.orphans := rfl
@[simp] theorem Part.setReports_plates (p : Part) (x : ReportUnit) : (p.setReports x).plates = p.plates := rfl
@[simp] theorem Part.setReports_channels (p : Part) (x : ReportUnit) : (p.setReports x).channels = p.channels := rfl
@[simp] theorem Part.setReports_sets (p : Part) (x : ReportUnit) : (p.setReports x).sets = p.sets := rfl
@[simp] theorem Part.setReports_owners (p : Part) (x : ReportUnit) : (p.setReports x).owners = p.owners := rfl
@[simp] theorem Part.setReports_reports (p : Part) (x : ReportUnit) : (p.setReports x).reports = x := rfl

/-! ## setOrphans -/

@[simp] theorem Part.setOrphans_cabase (p : Part) (x : List Orphan) : (p.setOrphans x).cabase = p.cabase := rfl
@[simp] theorem Part.setOrphans_tkdiv (p : Part) (x : List Orphan) : (p.setOrphans x).tkdiv = p.tkdiv := rfl
@[simp] theorem Part.setOrphans_sweep (p : Part) (x : List Orphan) : (p.setOrphans x).sweep = p.sweep := rfl
@[simp] theorem Part.setOrphans_tick (p : Part) (x : List Orphan) : (p.setOrphans x).tick = p.tick := rfl
@[simp] theorem Part.setOrphans_mem (p : Part) (x : List Orphan) : (p.setOrphans x).mem = p.mem := rfl
@[simp] theorem Part.setOrphans_port (p : Part) (x : List Orphan) : (p.setOrphans x).port = p.port := rfl
@[simp] theorem Part.setOrphans_freeReads (p : Part) (x : List Orphan) : (p.setOrphans x).freeReads = p.freeReads := rfl
@[simp] theorem Part.setOrphans_reports (p : Part) (x : List Orphan) : (p.setOrphans x).reports = p.reports := rfl
@[simp] theorem Part.setOrphans_params (p : Part) (x : List Orphan) : (p.setOrphans x).params = p.params := rfl
@[simp] theorem Part.setOrphans_units (p : Part) (x : List Orphan) : (p.setOrphans x).units = p.units := rfl
@[simp] theorem Part.setOrphans_windows (p : Part) (x : List Orphan) : (p.setOrphans x).windows = p.windows := rfl
@[simp] theorem Part.setOrphans_filters (p : Part) (x : List Orphan) : (p.setOrphans x).filters = p.filters := rfl
@[simp] theorem Part.setOrphans_parsers (p : Part) (x : List Orphan) : (p.setOrphans x).parsers = p.parsers := rfl
@[simp] theorem Part.setOrphans_transit (p : Part) (x : List Orphan) : (p.setOrphans x).transit = p.transit := rfl
@[simp] theorem Part.setOrphans_slots (p : Part) (x : List Orphan) : (p.setOrphans x).slots = p.slots := rfl
@[simp] theorem Part.setOrphans_plates (p : Part) (x : List Orphan) : (p.setOrphans x).plates = p.plates := rfl
@[simp] theorem Part.setOrphans_channels (p : Part) (x : List Orphan) : (p.setOrphans x).channels = p.channels := rfl
@[simp] theorem Part.setOrphans_sets (p : Part) (x : List Orphan) : (p.setOrphans x).sets = p.sets := rfl
@[simp] theorem Part.setOrphans_owners (p : Part) (x : List Orphan) : (p.setOrphans x).owners = p.owners := rfl
@[simp] theorem Part.setOrphans_orphans (p : Part) (x : List Orphan) : (p.setOrphans x).orphans = x := rfl

/-! ## setTransit -/

@[simp] theorem Part.setTransit_cabase (p : Part) (x : List Parcel) : (p.setTransit x).cabase = p.cabase := rfl
@[simp] theorem Part.setTransit_tkdiv (p : Part) (x : List Parcel) : (p.setTransit x).tkdiv = p.tkdiv := rfl
@[simp] theorem Part.setTransit_sweep (p : Part) (x : List Parcel) : (p.setTransit x).sweep = p.sweep := rfl
@[simp] theorem Part.setTransit_tick (p : Part) (x : List Parcel) : (p.setTransit x).tick = p.tick := rfl
@[simp] theorem Part.setTransit_mem (p : Part) (x : List Parcel) : (p.setTransit x).mem = p.mem := rfl
@[simp] theorem Part.setTransit_port (p : Part) (x : List Parcel) : (p.setTransit x).port = p.port := rfl
@[simp] theorem Part.setTransit_freeReads (p : Part) (x : List Parcel) : (p.setTransit x).freeReads = p.freeReads := rfl
@[simp] theorem Part.setTransit_reports (p : Part) (x : List Parcel) : (p.setTransit x).reports = p.reports := rfl
@[simp] theorem Part.setTransit_params (p : Part) (x : List Parcel) : (p.setTransit x).params = p.params := rfl
@[simp] theorem Part.setTransit_units (p : Part) (x : List Parcel) : (p.setTransit x).units = p.units := rfl
@[simp] theorem Part.setTransit_windows (p : Part) (x : List Parcel) : (p.setTransit x).windows = p.windows := rfl
@[simp] theorem Part.setTransit_filters (p : Part) (x : List Parcel) : (p.setTransit x).filters = p.filters := rfl
@[simp] theorem Part.setTransit_parsers (p : Part) (x : List Parcel) : (p.setTransit x).parsers = p.parsers := rfl
@[simp] theorem Part.setTransit_slots (p : Part) (x : List Parcel) : (p.setTransit x).slots = p.slots := rfl
@[simp] theorem Part.setTransit_orphans (p : Part) (x : List Parcel) : (p.setTransit x).orphans = p.orphans := rfl
@[simp] theorem Part.setTransit_plates (p : Part) (x : List Parcel) : (p.setTransit x).plates = p.plates := rfl
@[simp] theorem Part.setTransit_channels (p : Part) (x : List Parcel) : (p.setTransit x).channels = p.channels := rfl
@[simp] theorem Part.setTransit_sets (p : Part) (x : List Parcel) : (p.setTransit x).sets = p.sets := rfl
@[simp] theorem Part.setTransit_owners (p : Part) (x : List Parcel) : (p.setTransit x).owners = p.owners := rfl
@[simp] theorem Part.setTransit_transit (p : Part) (x : List Parcel) : (p.setTransit x).transit = x := rfl

/-! ## setOwners -/

@[simp] theorem Part.setOwners_cabase (p : Part) (x : Vector (Option (Fin 8)) 8) : (p.setOwners x).cabase = p.cabase := rfl
@[simp] theorem Part.setOwners_tkdiv (p : Part) (x : Vector (Option (Fin 8)) 8) : (p.setOwners x).tkdiv = p.tkdiv := rfl
@[simp] theorem Part.setOwners_sweep (p : Part) (x : Vector (Option (Fin 8)) 8) : (p.setOwners x).sweep = p.sweep := rfl
@[simp] theorem Part.setOwners_tick (p : Part) (x : Vector (Option (Fin 8)) 8) : (p.setOwners x).tick = p.tick := rfl
@[simp] theorem Part.setOwners_mem (p : Part) (x : Vector (Option (Fin 8)) 8) : (p.setOwners x).mem = p.mem := rfl
@[simp] theorem Part.setOwners_port (p : Part) (x : Vector (Option (Fin 8)) 8) : (p.setOwners x).port = p.port := rfl
@[simp] theorem Part.setOwners_freeReads (p : Part) (x : Vector (Option (Fin 8)) 8) : (p.setOwners x).freeReads = p.freeReads := rfl
@[simp] theorem Part.setOwners_reports (p : Part) (x : Vector (Option (Fin 8)) 8) : (p.setOwners x).reports = p.reports := rfl
@[simp] theorem Part.setOwners_params (p : Part) (x : Vector (Option (Fin 8)) 8) : (p.setOwners x).params = p.params := rfl
@[simp] theorem Part.setOwners_units (p : Part) (x : Vector (Option (Fin 8)) 8) : (p.setOwners x).units = p.units := rfl
@[simp] theorem Part.setOwners_windows (p : Part) (x : Vector (Option (Fin 8)) 8) : (p.setOwners x).windows = p.windows := rfl
@[simp] theorem Part.setOwners_filters (p : Part) (x : Vector (Option (Fin 8)) 8) : (p.setOwners x).filters = p.filters := rfl
@[simp] theorem Part.setOwners_parsers (p : Part) (x : Vector (Option (Fin 8)) 8) : (p.setOwners x).parsers = p.parsers := rfl
@[simp] theorem Part.setOwners_transit (p : Part) (x : Vector (Option (Fin 8)) 8) : (p.setOwners x).transit = p.transit := rfl
@[simp] theorem Part.setOwners_slots (p : Part) (x : Vector (Option (Fin 8)) 8) : (p.setOwners x).slots = p.slots := rfl
@[simp] theorem Part.setOwners_orphans (p : Part) (x : Vector (Option (Fin 8)) 8) : (p.setOwners x).orphans = p.orphans := rfl
@[simp] theorem Part.setOwners_plates (p : Part) (x : Vector (Option (Fin 8)) 8) : (p.setOwners x).plates = p.plates := rfl
@[simp] theorem Part.setOwners_channels (p : Part) (x : Vector (Option (Fin 8)) 8) : (p.setOwners x).channels = p.channels := rfl
@[simp] theorem Part.setOwners_sets (p : Part) (x : Vector (Option (Fin 8)) 8) : (p.setOwners x).sets = p.sets := rfl
@[simp] theorem Part.setOwners_owners (p : Part) (x : Vector (Option (Fin 8)) 8) : (p.setOwners x).owners = x := rfl

/-! ## setParams -/

@[simp] theorem Part.setParams_cabase (p : Part) (x : Params) : (p.setParams x).cabase = p.cabase := rfl
@[simp] theorem Part.setParams_tkdiv (p : Part) (x : Params) : (p.setParams x).tkdiv = p.tkdiv := rfl
@[simp] theorem Part.setParams_sweep (p : Part) (x : Params) : (p.setParams x).sweep = p.sweep := rfl
@[simp] theorem Part.setParams_tick (p : Part) (x : Params) : (p.setParams x).tick = p.tick := rfl
@[simp] theorem Part.setParams_mem (p : Part) (x : Params) : (p.setParams x).mem = p.mem := rfl
@[simp] theorem Part.setParams_port (p : Part) (x : Params) : (p.setParams x).port = p.port := rfl
@[simp] theorem Part.setParams_freeReads (p : Part) (x : Params) : (p.setParams x).freeReads = p.freeReads := rfl
@[simp] theorem Part.setParams_reports (p : Part) (x : Params) : (p.setParams x).reports = p.reports := rfl
@[simp] theorem Part.setParams_units (p : Part) (x : Params) : (p.setParams x).units = p.units := rfl
@[simp] theorem Part.setParams_windows (p : Part) (x : Params) : (p.setParams x).windows = p.windows := rfl
@[simp] theorem Part.setParams_filters (p : Part) (x : Params) : (p.setParams x).filters = p.filters := rfl
@[simp] theorem Part.setParams_parsers (p : Part) (x : Params) : (p.setParams x).parsers = p.parsers := rfl
@[simp] theorem Part.setParams_transit (p : Part) (x : Params) : (p.setParams x).transit = p.transit := rfl
@[simp] theorem Part.setParams_slots (p : Part) (x : Params) : (p.setParams x).slots = p.slots := rfl
@[simp] theorem Part.setParams_orphans (p : Part) (x : Params) : (p.setParams x).orphans = p.orphans := rfl
@[simp] theorem Part.setParams_plates (p : Part) (x : Params) : (p.setParams x).plates = p.plates := rfl
@[simp] theorem Part.setParams_channels (p : Part) (x : Params) : (p.setParams x).channels = p.channels := rfl
@[simp] theorem Part.setParams_sets (p : Part) (x : Params) : (p.setParams x).sets = p.sets := rfl
@[simp] theorem Part.setParams_owners (p : Part) (x : Params) : (p.setParams x).owners = p.owners := rfl
@[simp] theorem Part.setParams_params (p : Part) (x : Params) : (p.setParams x).params = x := rfl

/-! ## setSweep -/

@[simp] theorem Part.setSweep_cabase (p : Part) (x : Sweep) : (p.setSweep x).cabase = p.cabase := rfl
@[simp] theorem Part.setSweep_tkdiv (p : Part) (x : Sweep) : (p.setSweep x).tkdiv = p.tkdiv := rfl
@[simp] theorem Part.setSweep_tick (p : Part) (x : Sweep) : (p.setSweep x).tick = p.tick := rfl
@[simp] theorem Part.setSweep_mem (p : Part) (x : Sweep) : (p.setSweep x).mem = p.mem := rfl
@[simp] theorem Part.setSweep_port (p : Part) (x : Sweep) : (p.setSweep x).port = p.port := rfl
@[simp] theorem Part.setSweep_freeReads (p : Part) (x : Sweep) : (p.setSweep x).freeReads = p.freeReads := rfl
@[simp] theorem Part.setSweep_reports (p : Part) (x : Sweep) : (p.setSweep x).reports = p.reports := rfl
@[simp] theorem Part.setSweep_params (p : Part) (x : Sweep) : (p.setSweep x).params = p.params := rfl
@[simp] theorem Part.setSweep_units (p : Part) (x : Sweep) : (p.setSweep x).units = p.units := rfl
@[simp] theorem Part.setSweep_windows (p : Part) (x : Sweep) : (p.setSweep x).windows = p.windows := rfl
@[simp] theorem Part.setSweep_filters (p : Part) (x : Sweep) : (p.setSweep x).filters = p.filters := rfl
@[simp] theorem Part.setSweep_parsers (p : Part) (x : Sweep) : (p.setSweep x).parsers = p.parsers := rfl
@[simp] theorem Part.setSweep_transit (p : Part) (x : Sweep) : (p.setSweep x).transit = p.transit := rfl
@[simp] theorem Part.setSweep_slots (p : Part) (x : Sweep) : (p.setSweep x).slots = p.slots := rfl
@[simp] theorem Part.setSweep_orphans (p : Part) (x : Sweep) : (p.setSweep x).orphans = p.orphans := rfl
@[simp] theorem Part.setSweep_plates (p : Part) (x : Sweep) : (p.setSweep x).plates = p.plates := rfl
@[simp] theorem Part.setSweep_channels (p : Part) (x : Sweep) : (p.setSweep x).channels = p.channels := rfl
@[simp] theorem Part.setSweep_sets (p : Part) (x : Sweep) : (p.setSweep x).sets = p.sets := rfl
@[simp] theorem Part.setSweep_owners (p : Part) (x : Sweep) : (p.setSweep x).owners = p.owners := rfl
@[simp] theorem Part.setSweep_sweep (p : Part) (x : Sweep) : (p.setSweep x).sweep = x := rfl

/-! ## own -/

@[simp] theorem Part.own_cabase (p : Part) (w : OwnWrite) (off : Nat) (bs : List Byte) : (p.own w off bs).cabase = p.cabase := rfl
@[simp] theorem Part.own_tkdiv (p : Part) (w : OwnWrite) (off : Nat) (bs : List Byte) : (p.own w off bs).tkdiv = p.tkdiv := rfl
@[simp] theorem Part.own_sweep (p : Part) (w : OwnWrite) (off : Nat) (bs : List Byte) : (p.own w off bs).sweep = p.sweep := rfl
@[simp] theorem Part.own_tick (p : Part) (w : OwnWrite) (off : Nat) (bs : List Byte) : (p.own w off bs).tick = p.tick := rfl
@[simp] theorem Part.own_freeReads (p : Part) (w : OwnWrite) (off : Nat) (bs : List Byte) : (p.own w off bs).freeReads = p.freeReads := rfl
@[simp] theorem Part.own_reports (p : Part) (w : OwnWrite) (off : Nat) (bs : List Byte) : (p.own w off bs).reports = p.reports := rfl
@[simp] theorem Part.own_params (p : Part) (w : OwnWrite) (off : Nat) (bs : List Byte) : (p.own w off bs).params = p.params := rfl
@[simp] theorem Part.own_units (p : Part) (w : OwnWrite) (off : Nat) (bs : List Byte) : (p.own w off bs).units = p.units := rfl
@[simp] theorem Part.own_windows (p : Part) (w : OwnWrite) (off : Nat) (bs : List Byte) : (p.own w off bs).windows = p.windows := rfl
@[simp] theorem Part.own_filters (p : Part) (w : OwnWrite) (off : Nat) (bs : List Byte) : (p.own w off bs).filters = p.filters := rfl
@[simp] theorem Part.own_parsers (p : Part) (w : OwnWrite) (off : Nat) (bs : List Byte) : (p.own w off bs).parsers = p.parsers := rfl
@[simp] theorem Part.own_transit (p : Part) (w : OwnWrite) (off : Nat) (bs : List Byte) : (p.own w off bs).transit = p.transit := rfl
@[simp] theorem Part.own_slots (p : Part) (w : OwnWrite) (off : Nat) (bs : List Byte) : (p.own w off bs).slots = p.slots := rfl
@[simp] theorem Part.own_orphans (p : Part) (w : OwnWrite) (off : Nat) (bs : List Byte) : (p.own w off bs).orphans = p.orphans := rfl
@[simp] theorem Part.own_plates (p : Part) (w : OwnWrite) (off : Nat) (bs : List Byte) : (p.own w off bs).plates = p.plates := rfl
@[simp] theorem Part.own_channels (p : Part) (w : OwnWrite) (off : Nat) (bs : List Byte) : (p.own w off bs).channels = p.channels := rfl
@[simp] theorem Part.own_sets (p : Part) (w : OwnWrite) (off : Nat) (bs : List Byte) : (p.own w off bs).sets = p.sets := rfl
@[simp] theorem Part.own_owners (p : Part) (w : OwnWrite) (off : Nat) (bs : List Byte) : (p.own w off bs).owners = p.owners := rfl

/-! ## forward -/

@[simp] theorem Part.forward_cabase (p : Part) (a : Nat) (d : Vector Byte 64) (st : BitVec 64) : (p.forward a d st).cabase = p.cabase := rfl
@[simp] theorem Part.forward_tkdiv (p : Part) (a : Nat) (d : Vector Byte 64) (st : BitVec 64) : (p.forward a d st).tkdiv = p.tkdiv := rfl
@[simp] theorem Part.forward_sweep (p : Part) (a : Nat) (d : Vector Byte 64) (st : BitVec 64) : (p.forward a d st).sweep = p.sweep := rfl
@[simp] theorem Part.forward_tick (p : Part) (a : Nat) (d : Vector Byte 64) (st : BitVec 64) : (p.forward a d st).tick = p.tick := rfl
@[simp] theorem Part.forward_freeReads (p : Part) (a : Nat) (d : Vector Byte 64) (st : BitVec 64) : (p.forward a d st).freeReads = p.freeReads := rfl
@[simp] theorem Part.forward_reports (p : Part) (a : Nat) (d : Vector Byte 64) (st : BitVec 64) : (p.forward a d st).reports = p.reports := rfl
@[simp] theorem Part.forward_params (p : Part) (a : Nat) (d : Vector Byte 64) (st : BitVec 64) : (p.forward a d st).params = p.params := rfl
@[simp] theorem Part.forward_units (p : Part) (a : Nat) (d : Vector Byte 64) (st : BitVec 64) : (p.forward a d st).units = p.units := rfl
@[simp] theorem Part.forward_windows (p : Part) (a : Nat) (d : Vector Byte 64) (st : BitVec 64) : (p.forward a d st).windows = p.windows := rfl
@[simp] theorem Part.forward_filters (p : Part) (a : Nat) (d : Vector Byte 64) (st : BitVec 64) : (p.forward a d st).filters = p.filters := rfl
@[simp] theorem Part.forward_parsers (p : Part) (a : Nat) (d : Vector Byte 64) (st : BitVec 64) : (p.forward a d st).parsers = p.parsers := rfl
@[simp] theorem Part.forward_transit (p : Part) (a : Nat) (d : Vector Byte 64) (st : BitVec 64) : (p.forward a d st).transit = p.transit := rfl
@[simp] theorem Part.forward_slots (p : Part) (a : Nat) (d : Vector Byte 64) (st : BitVec 64) : (p.forward a d st).slots = p.slots := rfl
@[simp] theorem Part.forward_orphans (p : Part) (a : Nat) (d : Vector Byte 64) (st : BitVec 64) : (p.forward a d st).orphans = p.orphans := rfl
@[simp] theorem Part.forward_plates (p : Part) (a : Nat) (d : Vector Byte 64) (st : BitVec 64) : (p.forward a d st).plates = p.plates := rfl
@[simp] theorem Part.forward_channels (p : Part) (a : Nat) (d : Vector Byte 64) (st : BitVec 64) : (p.forward a d st).channels = p.channels := rfl
@[simp] theorem Part.forward_sets (p : Part) (a : Nat) (d : Vector Byte 64) (st : BitVec 64) : (p.forward a d st).sets = p.sets := rfl
@[simp] theorem Part.forward_owners (p : Part) (a : Nat) (d : Vector Byte 64) (st : BitVec 64) : (p.forward a d st).owners = p.owners := rfl
@[simp] theorem Part.own_mem (p : Part) (w : OwnWrite) (off : Nat) (bs : List Byte) :
    (p.own w off bs).mem = p.mem.writeBytes (p.base + off) bs := rfl
@[simp] theorem Port.grantOwn_eq (x : Port) : x.grantOwn = { x with lastGrant := .own } := rfl
@[simp] theorem Port.grantPassing_eq (x : Port) : x.grantPassing = { x with lastGrant := .passing } := rfl
@[simp] theorem Part.own_port (p : Part) (w : OwnWrite) (off : Nat) (bs : List Byte) :
    (p.own w off bs).port = { own := p.port.own ++ [w], lastGrant := .own } := rfl
@[simp] theorem Part.forward_port (p : Part) (a : Nat) (d : Vector Byte 64) (st : BitVec 64) :
    (p.forward a d st).port = { p.port with lastGrant := .passing } := rfl
@[simp] theorem Part.ownRead_eq (p : Part) : p.ownRead = { p with port := { p.port with lastGrant := .own } } := rfl
@[simp] theorem Part.own_base (p : Part) (w : OwnWrite) (off : Nat) (bs : List Byte) :
    (p.own w off bs).base = p.base := rfl
@[simp] theorem Part.forward_mem (p : Part) (a : Nat) (d : Vector Byte 64) (st : BitVec 64) :
    (p.forward a d st).mem = p.mem.writeStrobed a d st := rfl

/-! ## Records -/

/-- A record's unit after it has been replaced. -/
@[simp] theorem Part.unit_setRecord (p : Part) (r : RecordId) (x : CmdUnit) : (p.setRecord r x).unit r = x :=
  Part.setUnit_get p r.number x

/-- The 106 records have numbers of their own (R177). -/
theorem recordNumber_injective (r r' : RecordId) (h : r.number = r'.number) : r = r' := by
  have hv : r.number.val = r'.number.val := congrArg Fin.val h
  cases r <;> cases r' <;> simp only [RecordId.number, Fin.val_zero] at hv <;>
    first
      | rfl
      | (exfalso; omega)
      | exact congrArg _ (Fin.ext (by omega))

/-- Another record's unit. -/
theorem Part.unit_setRecord_ne (p : Part) (r r' : RecordId) (x : CmdUnit) (h : r' ≠ r) :
    (p.setRecord r x).unit r' = p.unit r' :=
  Part.setUnit_get_ne p r.number x r'.number fun e => h (recordNumber_injective r' r e)

end Sys2Proof.Machine
end

