-- ==== Sys2Proof/Laws/Frames.lean ====
section
/-! SUPPORT. What the shared operations leave as it was: one lemma for each field and operation. -/

namespace Sys2Proof.Machine

/-- A fold of acts that each keep a property keeps it. -/
theorem foldl_keeps {α β : Type} (P : α → Prop) (act : α → β → α) (h : ∀ a b, P a → P (act a b)) :
    ∀ (bs : List β) (a : α), P a → P (bs.foldl act a)
  | [], _, ha => ha
  | b :: bs, a, ha => foldl_keeps P act h bs (act a b) (h a b ha)

/-- A fold of acts that each keep a projection keeps it. -/
theorem foldl_same {α β γ : Type} (proj : α → γ) (act : α → β → α) (h : ∀ a b, proj (act a b) = proj a)
    (bs : List β) (a : α) : proj (bs.foldl act a) = proj a :=
  foldl_keeps (fun x => proj x = proj a) act (fun x b hx => (h x b).trans hx) bs a rfl

/-- An act for each number that keeps a property keeps it. -/
theorem forEach_keeps {α : Type} {n : Nat} (P : α → Prop) (act : α → Fin n → α) (h : ∀ a k, P a → P (act a k))
    (a : α) (ha : P a) : P (forEach n act a) :=
  foldl_keeps P act h (List.finRange n) a ha

/-- An act for each number that keeps a projection keeps it. -/
theorem forEach_same {α γ : Type} {n : Nat} (proj : α → γ) (act : α → Fin n → α)
    (h : ∀ a k, proj (act a k) = proj a) (a : α) : proj (forEach n act a) = proj a :=
  foldl_same proj act h (List.finRange n) a


/-! ## headerWrite -/

@[simp] theorem Part.headerWrite_cabase (p : Part) (g : HeaderGroup) : (p.headerWrite g).cabase = p.cabase := Part.own_cabase p _ _ _
@[simp] theorem Part.headerWrite_tkdiv (p : Part) (g : HeaderGroup) : (p.headerWrite g).tkdiv = p.tkdiv := Part.own_tkdiv p _ _ _
@[simp] theorem Part.headerWrite_sweep (p : Part) (g : HeaderGroup) : (p.headerWrite g).sweep = p.sweep := Part.own_sweep p _ _ _
@[simp] theorem Part.headerWrite_tick (p : Part) (g : HeaderGroup) : (p.headerWrite g).tick = p.tick := Part.own_tick p _ _ _
@[simp] theorem Part.headerWrite_freeReads (p : Part) (g : HeaderGroup) : (p.headerWrite g).freeReads = p.freeReads := Part.own_freeReads p _ _ _
@[simp] theorem Part.headerWrite_reports (p : Part) (g : HeaderGroup) : (p.headerWrite g).reports = p.reports := Part.own_reports p _ _ _
@[simp] theorem Part.headerWrite_params (p : Part) (g : HeaderGroup) : (p.headerWrite g).params = p.params := Part.own_params p _ _ _
@[simp] theorem Part.headerWrite_units (p : Part) (g : HeaderGroup) : (p.headerWrite g).units = p.units := Part.own_units p _ _ _
@[simp] theorem Part.headerWrite_windows (p : Part) (g : HeaderGroup) : (p.headerWrite g).windows = p.windows := Part.own_windows p _ _ _
@[simp] theorem Part.headerWrite_filters (p : Part) (g : HeaderGroup) : (p.headerWrite g).filters = p.filters := Part.own_filters p _ _ _
@[simp] theorem Part.headerWrite_parsers (p : Part) (g : HeaderGroup) : (p.headerWrite g).parsers = p.parsers := Part.own_parsers p _ _ _
@[simp] theorem Part.headerWrite_transit (p : Part) (g : HeaderGroup) : (p.headerWrite g).transit = p.transit := Part.own_transit p _ _ _
@[simp] theorem Part.headerWrite_slots (p : Part) (g : HeaderGroup) : (p.headerWrite g).slots = p.slots := Part.own_slots p _ _ _
@[simp] theorem Part.headerWrite_orphans (p : Part) (g : HeaderGroup) : (p.headerWrite g).orphans = p.orphans := Part.own_orphans p _ _ _
@[simp] theorem Part.headerWrite_plates (p : Part) (g : HeaderGroup) : (p.headerWrite g).plates = p.plates := Part.own_plates p _ _ _
@[simp] theorem Part.headerWrite_channels (p : Part) (g : HeaderGroup) : (p.headerWrite g).channels = p.channels := Part.own_channels p _ _ _
@[simp] theorem Part.headerWrite_sets (p : Part) (g : HeaderGroup) : (p.headerWrite g).sets = p.sets := Part.own_sets p _ _ _
@[simp] theorem Part.headerWrite_owners (p : Part) (g : HeaderGroup) : (p.headerWrite g).owners = p.owners := Part.own_owners p _ _ _

/-! ## statusWrite -/

@[simp] theorem Part.statusWrite_cabase (p : Part) (r : RecordId) : (p.statusWrite r).cabase = p.cabase := by
  unfold Part.statusWrite
  split <;> exact Part.own_cabase _ _ _ _
@[simp] theorem Part.statusWrite_tkdiv (p : Part) (r : RecordId) : (p.statusWrite r).tkdiv = p.tkdiv := by
  unfold Part.statusWrite
  split <;> exact Part.own_tkdiv _ _ _ _
@[simp] theorem Part.statusWrite_sweep (p : Part) (r : RecordId) : (p.statusWrite r).sweep = p.sweep := by
  unfold Part.statusWrite
  split <;> exact Part.own_sweep _ _ _ _
@[simp] theorem Part.statusWrite_tick (p : Part) (r : RecordId) : (p.statusWrite r).tick = p.tick := by
  unfold Part.statusWrite
  split <;> exact Part.own_tick _ _ _ _
@[simp] theorem Part.statusWrite_freeReads (p : Part) (r : RecordId) : (p.statusWrite r).freeReads = p.freeReads := by
  unfold Part.statusWrite
  split <;> exact Part.own_freeReads _ _ _ _
@[simp] theorem Part.statusWrite_reports (p : Part) (r : RecordId) : (p.statusWrite r).reports = p.reports := by
  unfold Part.statusWrite
  split <;> exact Part.own_reports _ _ _ _
@[simp] theorem Part.statusWrite_params (p : Part) (r : RecordId) : (p.statusWrite r).params = p.params := by
  unfold Part.statusWrite
  split <;> exact Part.own_params _ _ _ _
@[simp] theorem Part.statusWrite_units (p : Part) (r : RecordId) : (p.statusWrite r).units = p.units := by
  unfold Part.statusWrite
  split <;> exact Part.own_units _ _ _ _
@[simp] theorem Part.statusWrite_windows (p : Part) (r : RecordId) : (p.statusWrite r).windows = p.windows := by
  unfold Part.statusWrite
  split <;> exact Part.own_windows _ _ _ _
@[simp] theorem Part.statusWrite_filters (p : Part) (r : RecordId) : (p.statusWrite r).filters = p.filters := by
  unfold Part.statusWrite
  split <;> exact Part.own_filters _ _ _ _
@[simp] theorem Part.statusWrite_parsers (p : Part) (r : RecordId) : (p.statusWrite r).parsers = p.parsers := by
  unfold Part.statusWrite
  split <;> exact Part.own_parsers _ _ _ _
@[simp] theorem Part.statusWrite_transit (p : Part) (r : RecordId) : (p.statusWrite r).transit = p.transit := by
  unfold Part.statusWrite
  split <;> exact Part.own_transit _ _ _ _
@[simp] theorem Part.statusWrite_slots (p : Part) (r : RecordId) : (p.statusWrite r).slots = p.slots := by
  unfold Part.statusWrite
  split <;> exact Part.own_slots _ _ _ _
@[simp] theorem Part.statusWrite_orphans (p : Part) (r : RecordId) : (p.statusWrite r).orphans = p.orphans := by
  unfold Part.statusWrite
  split <;> exact Part.own_orphans _ _ _ _
@[simp] theorem Part.statusWrite_plates (p : Part) (r : RecordId) : (p.statusWrite r).plates = p.plates := by
  unfold Part.statusWrite
  split <;> exact Part.own_plates _ _ _ _
@[simp] theorem Part.statusWrite_channels (p : Part) (r : RecordId) : (p.statusWrite r).channels = p.channels := by
  unfold Part.statusWrite
  split <;> exact Part.own_channels _ _ _ _
@[simp] theorem Part.statusWrite_sets (p : Part) (r : RecordId) : (p.statusWrite r).sets = p.sets := by
  unfold Part.statusWrite
  split <;> exact Part.own_sets _ _ _ _
@[simp] theorem Part.statusWrite_owners (p : Part) (r : RecordId) : (p.statusWrite r).owners = p.owners := by
  unfold Part.statusWrite
  split <;> exact Part.own_owners _ _ _ _

/-! ## plateStatus -/

@[simp] theorem Part.plateStatus_cabase (p : Part) (n : Fin 64) : (p.plateStatus n).cabase = p.cabase := Part.statusWrite_cabase p _
@[simp] theorem Part.plateStatus_tkdiv (p : Part) (n : Fin 64) : (p.plateStatus n).tkdiv = p.tkdiv := Part.statusWrite_tkdiv p _
@[simp] theorem Part.plateStatus_sweep (p : Part) (n : Fin 64) : (p.plateStatus n).sweep = p.sweep := Part.statusWrite_sweep p _
@[simp] theorem Part.plateStatus_tick (p : Part) (n : Fin 64) : (p.plateStatus n).tick = p.tick := Part.statusWrite_tick p _
@[simp] theorem Part.plateStatus_freeReads (p : Part) (n : Fin 64) : (p.plateStatus n).freeReads = p.freeReads := Part.statusWrite_freeReads p _
@[simp] theorem Part.plateStatus_reports (p : Part) (n : Fin 64) : (p.plateStatus n).reports = p.reports := Part.statusWrite_reports p _
@[simp] theorem Part.plateStatus_params (p : Part) (n : Fin 64) : (p.plateStatus n).params = p.params := Part.statusWrite_params p _
@[simp] theorem Part.plateStatus_units (p : Part) (n : Fin 64) : (p.plateStatus n).units = p.units := Part.statusWrite_units p _
@[simp] theorem Part.plateStatus_windows (p : Part) (n : Fin 64) : (p.plateStatus n).windows = p.windows := Part.statusWrite_windows p _
@[simp] theorem Part.plateStatus_filters (p : Part) (n : Fin 64) : (p.plateStatus n).filters = p.filters := Part.statusWrite_filters p _
@[simp] theorem Part.plateStatus_parsers (p : Part) (n : Fin 64) : (p.plateStatus n).parsers = p.parsers := Part.statusWrite_parsers p _
@[simp] theorem Part.plateStatus_transit (p : Part) (n : Fin 64) : (p.plateStatus n).transit = p.transit := Part.statusWrite_transit p _
@[simp] theorem Part.plateStatus_slots (p : Part) (n : Fin 64) : (p.plateStatus n).slots = p.slots := Part.statusWrite_slots p _
@[simp] theorem Part.plateStatus_orphans (p : Part) (n : Fin 64) : (p.plateStatus n).orphans = p.orphans := Part.statusWrite_orphans p _
@[simp] theorem Part.plateStatus_plates (p : Part) (n : Fin 64) : (p.plateStatus n).plates = p.plates := Part.statusWrite_plates p _
@[simp] theorem Part.plateStatus_channels (p : Part) (n : Fin 64) : (p.plateStatus n).channels = p.channels := Part.statusWrite_channels p _
@[simp] theorem Part.plateStatus_sets (p : Part) (n : Fin 64) : (p.plateStatus n).sets = p.sets := Part.statusWrite_sets p _
@[simp] theorem Part.plateStatus_owners (p : Part) (n : Fin 64) : (p.plateStatus n).owners = p.owners := Part.statusWrite_owners p _

/-! ## mirrorBlock -/

@[simp] theorem Part.mirrorBlock_cabase (p : Part) (n : Fin 512) (bs : List Byte) (b : Nat) : (p.mirrorBlock n bs b).cabase = p.cabase := Part.own_cabase p _ _ _
@[simp] theorem Part.mirrorBlock_tkdiv (p : Part) (n : Fin 512) (bs : List Byte) (b : Nat) : (p.mirrorBlock n bs b).tkdiv = p.tkdiv := Part.own_tkdiv p _ _ _
@[simp] theorem Part.mirrorBlock_sweep (p : Part) (n : Fin 512) (bs : List Byte) (b : Nat) : (p.mirrorBlock n bs b).sweep = p.sweep := Part.own_sweep p _ _ _
@[simp] theorem Part.mirrorBlock_tick (p : Part) (n : Fin 512) (bs : List Byte) (b : Nat) : (p.mirrorBlock n bs b).tick = p.tick := Part.own_tick p _ _ _
@[simp] theorem Part.mirrorBlock_freeReads (p : Part) (n : Fin 512) (bs : List Byte) (b : Nat) : (p.mirrorBlock n bs b).freeReads = p.freeReads := Part.own_freeReads p _ _ _
@[simp] theorem Part.mirrorBlock_reports (p : Part) (n : Fin 512) (bs : List Byte) (b : Nat) : (p.mirrorBlock n bs b).reports = p.reports := Part.own_reports p _ _ _
@[simp] theorem Part.mirrorBlock_params (p : Part) (n : Fin 512) (bs : List Byte) (b : Nat) : (p.mirrorBlock n bs b).params = p.params := Part.own_params p _ _ _
@[simp] theorem Part.mirrorBlock_units (p : Part) (n : Fin 512) (bs : List Byte) (b : Nat) : (p.mirrorBlock n bs b).units = p.units := Part.own_units p _ _ _
@[simp] theorem Part.mirrorBlock_windows (p : Part) (n : Fin 512) (bs : List Byte) (b : Nat) : (p.mirrorBlock n bs b).windows = p.windows := Part.own_windows p _ _ _
@[simp] theorem Part.mirrorBlock_filters (p : Part) (n : Fin 512) (bs : List Byte) (b : Nat) : (p.mirrorBlock n bs b).filters = p.filters := Part.own_filters p _ _ _
@[simp] theorem Part.mirrorBlock_parsers (p : Part) (n : Fin 512) (bs : List Byte) (b : Nat) : (p.mirrorBlock n bs b).parsers = p.parsers := Part.own_parsers p _ _ _
@[simp] theorem Part.mirrorBlock_transit (p : Part) (n : Fin 512) (bs : List Byte) (b : Nat) : (p.mirrorBlock n bs b).transit = p.transit := Part.own_transit p _ _ _
@[simp] theorem Part.mirrorBlock_slots (p : Part) (n : Fin 512) (bs : List Byte) (b : Nat) : (p.mirrorBlock n bs b).slots = p.slots := Part.own_slots p _ _ _
@[simp] theorem Part.mirrorBlock_orphans (p : Part) (n : Fin 512) (bs : List Byte) (b : Nat) : (p.mirrorBlock n bs b).orphans = p.orphans := Part.own_orphans p _ _ _
@[simp] theorem Part.mirrorBlock_plates (p : Part) (n : Fin 512) (bs : List Byte) (b : Nat) : (p.mirrorBlock n bs b).plates = p.plates := Part.own_plates p _ _ _
@[simp] theorem Part.mirrorBlock_channels (p : Part) (n : Fin 512) (bs : List Byte) (b : Nat) : (p.mirrorBlock n bs b).channels = p.channels := Part.own_channels p _ _ _
@[simp] theorem Part.mirrorBlock_sets (p : Part) (n : Fin 512) (bs : List Byte) (b : Nat) : (p.mirrorBlock n bs b).sets = p.sets := Part.own_sets p _ _ _
@[simp] theorem Part.mirrorBlock_owners (p : Part) (n : Fin 512) (bs : List Byte) (b : Nat) : (p.mirrorBlock n bs b).owners = p.owners := Part.own_owners p _ _ _

/-! ## finish -/

@[simp] theorem Part.finish_cabase (p : Part) (r : RecordId) (c : ResultCode) (d : Nat) : (p.finish r c d).cabase = p.cabase := by
  unfold Part.finish
  dsimp only
  split
  · exact Part.headerWrite_cabase _ _
  · exact Part.own_cabase _ _ _ _
@[simp] theorem Part.finish_tkdiv (p : Part) (r : RecordId) (c : ResultCode) (d : Nat) : (p.finish r c d).tkdiv = p.tkdiv := by
  unfold Part.finish
  dsimp only
  split
  · exact Part.headerWrite_tkdiv _ _
  · exact Part.own_tkdiv _ _ _ _
@[simp] theorem Part.finish_sweep (p : Part) (r : RecordId) (c : ResultCode) (d : Nat) : (p.finish r c d).sweep = p.sweep := by
  unfold Part.finish
  dsimp only
  split
  · exact Part.headerWrite_sweep _ _
  · exact Part.own_sweep _ _ _ _
@[simp] theorem Part.finish_tick (p : Part) (r : RecordId) (c : ResultCode) (d : Nat) : (p.finish r c d).tick = p.tick := by
  unfold Part.finish
  dsimp only
  split
  · exact Part.headerWrite_tick _ _
  · exact Part.own_tick _ _ _ _
@[simp] theorem Part.finish_freeReads (p : Part) (r : RecordId) (c : ResultCode) (d : Nat) : (p.finish r c d).freeReads = p.freeReads := by
  unfold Part.finish
  dsimp only
  split
  · exact Part.headerWrite_freeReads _ _
  · exact Part.own_freeReads _ _ _ _
@[simp] theorem Part.finish_reports (p : Part) (r : RecordId) (c : ResultCode) (d : Nat) : (p.finish r c d).reports = p.reports := by
  unfold Part.finish
  dsimp only
  split
  · exact Part.headerWrite_reports _ _
  · exact Part.own_reports _ _ _ _
@[simp] theorem Part.finish_params (p : Part) (r : RecordId) (c : ResultCode) (d : Nat) : (p.finish r c d).params = p.params := by
  unfold Part.finish
  dsimp only
  split
  · exact Part.headerWrite_params _ _
  · exact Part.own_params _ _ _ _
@[simp] theorem Part.finish_windows (p : Part) (r : RecordId) (c : ResultCode) (d : Nat) : (p.finish r c d).windows = p.windows := by
  unfold Part.finish
  dsimp only
  split
  · exact Part.headerWrite_windows _ _
  · exact Part.own_windows _ _ _ _
@[simp] theorem Part.finish_filters (p : Part) (r : RecordId) (c : ResultCode) (d : Nat) : (p.finish r c d).filters = p.filters := by
  unfold Part.finish
  dsimp only
  split
  · exact Part.headerWrite_filters _ _
  · exact Part.own_filters _ _ _ _
@[simp] theorem Part.finish_parsers (p : Part) (r : RecordId) (c : ResultCode) (d : Nat) : (p.finish r c d).parsers = p.parsers := by
  unfold Part.finish
  dsimp only
  split
  · exact Part.headerWrite_parsers _ _
  · exact Part.own_parsers _ _ _ _
@[simp] theorem Part.finish_transit (p : Part) (r : RecordId) (c : ResultCode) (d : Nat) : (p.finish r c d).transit = p.transit := by
  unfold Part.finish
  dsimp only
  split
  · exact Part.headerWrite_transit _ _
  · exact Part.own_transit _ _ _ _
@[simp] theorem Part.finish_slots (p : Part) (r : RecordId) (c : ResultCode) (d : Nat) : (p.finish r c d).slots = p.slots := by
  unfold Part.finish
  dsimp only
  split
  · exact Part.headerWrite_slots _ _
  · exact Part.own_slots _ _ _ _
@[simp] theorem Part.finish_orphans (p : Part) (r : RecordId) (c : ResultCode) (d : Nat) : (p.finish r c d).orphans = p.orphans := by
  unfold Part.finish
  dsimp only
  split
  · exact Part.headerWrite_orphans _ _
  · exact Part.own_orphans _ _ _ _
@[simp] theorem Part.finish_plates (p : Part) (r : RecordId) (c : ResultCode) (d : Nat) : (p.finish r c d).plates = p.plates := by
  unfold Part.finish
  dsimp only
  split
  · exact Part.headerWrite_plates _ _
  · exact Part.own_plates _ _ _ _
@[simp] theorem Part.finish_channels (p : Part) (r : RecordId) (c : ResultCode) (d : Nat) : (p.finish r c d).channels = p.channels := by
  unfold Part.finish
  dsimp only
  split
  · exact Part.headerWrite_channels _ _
  · exact Part.own_channels _ _ _ _
@[simp] theorem Part.finish_sets (p : Part) (r : RecordId) (c : ResultCode) (d : Nat) : (p.finish r c d).sets = p.sets := by
  unfold Part.finish
  dsimp only
  split
  · exact Part.headerWrite_sets _ _
  · exact Part.own_sets _ _ _ _
@[simp] theorem Part.finish_owners (p : Part) (r : RecordId) (c : ResultCode) (d : Nat) : (p.finish r c d).owners = p.owners := by
  unfold Part.finish
  dsimp only
  split
  · exact Part.headerWrite_owners _ _
  · exact Part.own_owners _ _ _ _

/-! ## finishFree -/

@[simp] theorem Part.finishFree_cabase (p : Part) (r : RecordId) (c : ResultCode) : (p.finishFree r c).cabase = p.cabase := Part.finish_cabase { p with freeReads := p.freeReads + 1 } r c _
@[simp] theorem Part.finishFree_tkdiv (p : Part) (r : RecordId) (c : ResultCode) : (p.finishFree r c).tkdiv = p.tkdiv := Part.finish_tkdiv { p with freeReads := p.freeReads + 1 } r c _
@[simp] theorem Part.finishFree_sweep (p : Part) (r : RecordId) (c : ResultCode) : (p.finishFree r c).sweep = p.sweep := Part.finish_sweep { p with freeReads := p.freeReads + 1 } r c _
@[simp] theorem Part.finishFree_tick (p : Part) (r : RecordId) (c : ResultCode) : (p.finishFree r c).tick = p.tick := Part.finish_tick { p with freeReads := p.freeReads + 1 } r c _
@[simp] theorem Part.finishFree_reports (p : Part) (r : RecordId) (c : ResultCode) : (p.finishFree r c).reports = p.reports := Part.finish_reports { p with freeReads := p.freeReads + 1 } r c _
@[simp] theorem Part.finishFree_params (p : Part) (r : RecordId) (c : ResultCode) : (p.finishFree r c).params = p.params := Part.finish_params { p with freeReads := p.freeReads + 1 } r c _
@[simp] theorem Part.finishFree_windows (p : Part) (r : RecordId) (c : ResultCode) : (p.finishFree r c).windows = p.windows := Part.finish_windows { p with freeReads := p.freeReads + 1 } r c _
@[simp] theorem Part.finishFree_filters (p : Part) (r : RecordId) (c : ResultCode) : (p.finishFree r c).filters = p.filters := Part.finish_filters { p with freeReads := p.freeReads + 1 } r c _
@[simp] theorem Part.finishFree_parsers (p : Part) (r : RecordId) (c : ResultCode) : (p.finishFree r c).parsers = p.parsers := Part.finish_parsers { p with freeReads := p.freeReads + 1 } r c _
@[simp] theorem Part.finishFree_transit (p : Part) (r : RecordId) (c : ResultCode) : (p.finishFree r c).transit = p.transit := Part.finish_transit { p with freeReads := p.freeReads + 1 } r c _
@[simp] theorem Part.finishFree_slots (p : Part) (r : RecordId) (c : ResultCode) : (p.finishFree r c).slots = p.slots := Part.finish_slots { p with freeReads := p.freeReads + 1 } r c _
@[simp] theorem Part.finishFree_orphans (p : Part) (r : RecordId) (c : ResultCode) : (p.finishFree r c).orphans = p.orphans := Part.finish_orphans { p with freeReads := p.freeReads + 1 } r c _
@[simp] theorem Part.finishFree_plates (p : Part) (r : RecordId) (c : ResultCode) : (p.finishFree r c).plates = p.plates := Part.finish_plates { p with freeReads := p.freeReads + 1 } r c _
@[simp] theorem Part.finishFree_channels (p : Part) (r : RecordId) (c : ResultCode) : (p.finishFree r c).channels = p.channels := Part.finish_channels { p with freeReads := p.freeReads + 1 } r c _
@[simp] theorem Part.finishFree_sets (p : Part) (r : RecordId) (c : ResultCode) : (p.finishFree r c).sets = p.sets := Part.finish_sets { p with freeReads := p.freeReads + 1 } r c _
@[simp] theorem Part.finishFree_owners (p : Part) (r : RecordId) (c : ResultCode) : (p.finishFree r c).owners = p.owners := Part.finish_owners { p with freeReads := p.freeReads + 1 } r c _

/-! ## lose -/

@[simp] theorem Part.lose_cabase (p : Part) : (p.lose).cabase = p.cabase := by
  rw [Part.lose, Part.headerWrite_cabase, Part.setReports_cabase]
@[simp] theorem Part.lose_tkdiv (p : Part) : (p.lose).tkdiv = p.tkdiv := by
  rw [Part.lose, Part.headerWrite_tkdiv, Part.setReports_tkdiv]
@[simp] theorem Part.lose_sweep (p : Part) : (p.lose).sweep = p.sweep := by
  rw [Part.lose, Part.headerWrite_sweep, Part.setReports_sweep]
@[simp] theorem Part.lose_tick (p : Part) : (p.lose).tick = p.tick := by
  rw [Part.lose, Part.headerWrite_tick, Part.setReports_tick]
@[simp] theorem Part.lose_freeReads (p : Part) : (p.lose).freeReads = p.freeReads := by
  rw [Part.lose, Part.headerWrite_freeReads, Part.setReports_freeReads]
@[simp] theorem Part.lose_params (p : Part) : (p.lose).params = p.params := by
  rw [Part.lose, Part.headerWrite_params, Part.setReports_params]
@[simp] theorem Part.lose_units (p : Part) : (p.lose).units = p.units := by
  rw [Part.lose, Part.headerWrite_units, Part.setReports_units]
@[simp] theorem Part.lose_windows (p : Part) : (p.lose).windows = p.windows := by
  rw [Part.lose, Part.headerWrite_windows, Part.setReports_windows]
@[simp] theorem Part.lose_filters (p : Part) : (p.lose).filters = p.filters := by
  rw [Part.lose, Part.headerWrite_filters, Part.setReports_filters]
@[simp] theorem Part.lose_parsers (p : Part) : (p.lose).parsers = p.parsers := by
  rw [Part.lose, Part.headerWrite_parsers, Part.setReports_parsers]
@[simp] theorem Part.lose_transit (p : Part) : (p.lose).transit = p.transit := by
  rw [Part.lose, Part.headerWrite_transit, Part.setReports_transit]
@[simp] theorem Part.lose_slots (p : Part) : (p.lose).slots = p.slots := by
  rw [Part.lose, Part.headerWrite_slots, Part.setReports_slots]
@[simp] theorem Part.lose_orphans (p : Part) : (p.lose).orphans = p.orphans := by
  rw [Part.lose, Part.headerWrite_orphans, Part.setReports_orphans]
@[simp] theorem Part.lose_plates (p : Part) : (p.lose).plates = p.plates := by
  rw [Part.lose, Part.headerWrite_plates, Part.setReports_plates]
@[simp] theorem Part.lose_channels (p : Part) : (p.lose).channels = p.channels := by
  rw [Part.lose, Part.headerWrite_channels, Part.setReports_channels]
@[simp] theorem Part.lose_sets (p : Part) : (p.lose).sets = p.sets := by
  rw [Part.lose, Part.headerWrite_sets, Part.setReports_sets]
@[simp] theorem Part.lose_owners (p : Part) : (p.lose).owners = p.owners := by
  rw [Part.lose, Part.headerWrite_owners, Part.setReports_owners]

/-! ## writeReport -/

@[simp] theorem Part.writeReport_cabase (p : Part) (r : Report) : (p.writeReport r).cabase = p.cabase := by
  rw [Part.writeReport, Part.headerWrite_cabase, Part.setReports_cabase, Part.own_cabase]
@[simp] theorem Part.writeReport_tkdiv (p : Part) (r : Report) : (p.writeReport r).tkdiv = p.tkdiv := by
  rw [Part.writeReport, Part.headerWrite_tkdiv, Part.setReports_tkdiv, Part.own_tkdiv]
@[simp] theorem Part.writeReport_sweep (p : Part) (r : Report) : (p.writeReport r).sweep = p.sweep := by
  rw [Part.writeReport, Part.headerWrite_sweep, Part.setReports_sweep, Part.own_sweep]
@[simp] theorem Part.writeReport_tick (p : Part) (r : Report) : (p.writeReport r).tick = p.tick := by
  rw [Part.writeReport, Part.headerWrite_tick, Part.setReports_tick, Part.own_tick]
@[simp] theorem Part.writeReport_freeReads (p : Part) (r : Report) : (p.writeReport r).freeReads = p.freeReads := by
  rw [Part.writeReport, Part.headerWrite_freeReads, Part.setReports_freeReads, Part.own_freeReads]
@[simp] theorem Part.writeReport_params (p : Part) (r : Report) : (p.writeReport r).params = p.params := by
  rw [Part.writeReport, Part.headerWrite_params, Part.setReports_params, Part.own_params]
@[simp] theorem Part.writeReport_units (p : Part) (r : Report) : (p.writeReport r).units = p.units := by
  rw [Part.writeReport, Part.headerWrite_units, Part.setReports_units, Part.own_units]
@[simp] theorem Part.writeReport_windows (p : Part) (r : Report) : (p.writeReport r).windows = p.windows := by
  rw [Part.writeReport, Part.headerWrite_windows, Part.setReports_windows, Part.own_windows]
@[simp] theorem Part.writeReport_filters (p : Part) (r : Report) : (p.writeReport r).filters = p.filters := by
  rw [Part.writeReport, Part.headerWrite_filters, Part.setReports_filters, Part.own_filters]
@[simp] theorem Part.writeReport_parsers (p : Part) (r : Report) : (p.writeReport r).parsers = p.parsers := by
  rw [Part.writeReport, Part.headerWrite_parsers, Part.setReports_parsers, Part.own_parsers]
@[simp] theorem Part.writeReport_transit (p : Part) (r : Report) : (p.writeReport r).transit = p.transit := by
  rw [Part.writeReport, Part.headerWrite_transit, Part.setReports_transit, Part.own_transit]
@[simp] theorem Part.writeReport_slots (p : Part) (r : Report) : (p.writeReport r).slots = p.slots := by
  rw [Part.writeReport, Part.headerWrite_slots, Part.setReports_slots, Part.own_slots]
@[simp] theorem Part.writeReport_orphans (p : Part) (r : Report) : (p.writeReport r).orphans = p.orphans := by
  rw [Part.writeReport, Part.headerWrite_orphans, Part.setReports_orphans, Part.own_orphans]
@[simp] theorem Part.writeReport_plates (p : Part) (r : Report) : (p.writeReport r).plates = p.plates := by
  rw [Part.writeReport, Part.headerWrite_plates, Part.setReports_plates, Part.own_plates]
@[simp] theorem Part.writeReport_channels (p : Part) (r : Report) : (p.writeReport r).channels = p.channels := by
  rw [Part.writeReport, Part.headerWrite_channels, Part.setReports_channels, Part.own_channels]
@[simp] theorem Part.writeReport_sets (p : Part) (r : Report) : (p.writeReport r).sets = p.sets := by
  rw [Part.writeReport, Part.headerWrite_sets, Part.setReports_sets, Part.own_sets]
@[simp] theorem Part.writeReport_owners (p : Part) (r : Report) : (p.writeReport r).owners = p.owners := by
  rw [Part.writeReport, Part.headerWrite_owners, Part.setReports_owners, Part.own_owners]

/-! ## takeReport -/

@[simp] theorem Part.takeReport_cabase (p : Part) (r : Report) : (p.takeReport r).cabase = p.cabase := by
  unfold Part.takeReport
  split
  · rfl
  · split
    · split
      · exact Part.setReports_cabase ..
      · exact Part.lose_cabase p
    · split
      · exact Part.lose_cabase p
      · exact Part.writeReport_cabase p r
@[simp] theorem Part.takeReport_tkdiv (p : Part) (r : Report) : (p.takeReport r).tkdiv = p.tkdiv := by
  unfold Part.takeReport
  split
  · rfl
  · split
    · split
      · exact Part.setReports_tkdiv ..
      · exact Part.lose_tkdiv p
    · split
      · exact Part.lose_tkdiv p
      · exact Part.writeReport_tkdiv p r
@[simp] theorem Part.takeReport_sweep (p : Part) (r : Report) : (p.takeReport r).sweep = p.sweep := by
  unfold Part.takeReport
  split
  · rfl
  · split
    · split
      · exact Part.setReports_sweep ..
      · exact Part.lose_sweep p
    · split
      · exact Part.lose_sweep p
      · exact Part.writeReport_sweep p r
@[simp] theorem Part.takeReport_tick (p : Part) (r : Report) : (p.takeReport r).tick = p.tick := by
  unfold Part.takeReport
  split
  · rfl
  · split
    · split
      · exact Part.setReports_tick ..
      · exact Part.lose_tick p
    · split
      · exact Part.lose_tick p
      · exact Part.writeReport_tick p r
@[simp] theorem Part.takeReport_freeReads (p : Part) (r : Report) : (p.takeReport r).freeReads = p.freeReads := by
  unfold Part.takeReport
  split
  · rfl
  · split
    · split
      · exact Part.setReports_freeReads ..
      · exact Part.lose_freeReads p
    · split
      · exact Part.lose_freeReads p
      · exact Part.writeReport_freeReads p r
@[simp] theorem Part.takeReport_params (p : Part) (r : Report) : (p.takeReport r).params = p.params := by
  unfold Part.takeReport
  split
  · rfl
  · split
    · split
      · exact Part.setReports_params ..
      · exact Part.lose_params p
    · split
      · exact Part.lose_params p
      · exact Part.writeReport_params p r
@[simp] theorem Part.takeReport_units (p : Part) (r : Report) : (p.takeReport r).units = p.units := by
  unfold Part.takeReport
  split
  · rfl
  · split
    · split
      · exact Part.setReports_units ..
      · exact Part.lose_units p
    · split
      · exact Part.lose_units p
      · exact Part.writeReport_units p r
@[simp] theorem Part.takeReport_windows (p : Part) (r : Report) : (p.takeReport r).windows = p.windows := by
  unfold Part.takeReport
  split
  · rfl
  · split
    · split
      · exact Part.setReports_windows ..
      · exact Part.lose_windows p
    · split
      · exact Part.lose_windows p
      · exact Part.writeReport_windows p r
@[simp] theorem Part.takeReport_filters (p : Part) (r : Report) : (p.takeReport r).filters = p.filters := by
  unfold Part.takeReport
  split
  · rfl
  · split
    · split
      · exact Part.setReports_filters ..
      · exact Part.lose_filters p
    · split
      · exact Part.lose_filters p
      · exact Part.writeReport_filters p r
@[simp] theorem Part.takeReport_parsers (p : Part) (r : Report) : (p.takeReport r).parsers = p.parsers := by
  unfold Part.takeReport
  split
  · rfl
  · split
    · split
      · exact Part.setReports_parsers ..
      · exact Part.lose_parsers p
    · split
      · exact Part.lose_parsers p
      · exact Part.writeReport_parsers p r
@[simp] theorem Part.takeReport_transit (p : Part) (r : Report) : (p.takeReport r).transit = p.transit := by
  unfold Part.takeReport
  split
  · rfl
  · split
    · split
      · exact Part.setReports_transit ..
      · exact Part.lose_transit p
    · split
      · exact Part.lose_transit p
      · exact Part.writeReport_transit p r
@[simp] theorem Part.takeReport_slots (p : Part) (r : Report) : (p.takeReport r).slots = p.slots := by
  unfold Part.takeReport
  split
  · rfl
  · split
    · split
      · exact Part.setReports_slots ..
      · exact Part.lose_slots p
    · split
      · exact Part.lose_slots p
      · exact Part.writeReport_slots p r
@[simp] theorem Part.takeReport_orphans (p : Part) (r : Report) : (p.takeReport r).orphans = p.orphans := by
  unfold Part.takeReport
  split
  · rfl
  · split
    · split
      · exact Part.setReports_orphans ..
      · exact Part.lose_orphans p
    · split
      · exact Part.lose_orphans p
      · exact Part.writeReport_orphans p r
@[simp] theorem Part.takeReport_plates (p : Part) (r : Report) : (p.takeReport r).plates = p.plates := by
  unfold Part.takeReport
  split
  · rfl
  · split
    · split
      · exact Part.setReports_plates ..
      · exact Part.lose_plates p
    · split
      · exact Part.lose_plates p
      · exact Part.writeReport_plates p r
@[simp] theorem Part.takeReport_channels (p : Part) (r : Report) : (p.takeReport r).channels = p.channels := by
  unfold Part.takeReport
  split
  · rfl
  · split
    · split
      · exact Part.setReports_channels ..
      · exact Part.lose_channels p
    · split
      · exact Part.lose_channels p
      · exact Part.writeReport_channels p r
@[simp] theorem Part.takeReport_sets (p : Part) (r : Report) : (p.takeReport r).sets = p.sets := by
  unfold Part.takeReport
  split
  · rfl
  · split
    · split
      · exact Part.setReports_sets ..
      · exact Part.lose_sets p
    · split
      · exact Part.lose_sets p
      · exact Part.writeReport_sets p r
@[simp] theorem Part.takeReport_owners (p : Part) (r : Report) : (p.takeReport r).owners = p.owners := by
  unfold Part.takeReport
  split
  · rfl
  · split
    · split
      · exact Part.setReports_owners ..
      · exact Part.lose_owners p
    · split
      · exact Part.lose_owners p
      · exact Part.writeReport_owners p r

/-! ## raise -/

@[simp] theorem Part.raise_cabase (p : Part) (k : ReportKind) (x : Subject) : (p.raise k x).cabase = p.cabase := Part.takeReport_cabase p _
@[simp] theorem Part.raise_tkdiv (p : Part) (k : ReportKind) (x : Subject) : (p.raise k x).tkdiv = p.tkdiv := Part.takeReport_tkdiv p _
@[simp] theorem Part.raise_sweep (p : Part) (k : ReportKind) (x : Subject) : (p.raise k x).sweep = p.sweep := Part.takeReport_sweep p _
@[simp] theorem Part.raise_tick (p : Part) (k : ReportKind) (x : Subject) : (p.raise k x).tick = p.tick := Part.takeReport_tick p _
@[simp] theorem Part.raise_freeReads (p : Part) (k : ReportKind) (x : Subject) : (p.raise k x).freeReads = p.freeReads := Part.takeReport_freeReads p _
@[simp] theorem Part.raise_params (p : Part) (k : ReportKind) (x : Subject) : (p.raise k x).params = p.params := Part.takeReport_params p _
@[simp] theorem Part.raise_units (p : Part) (k : ReportKind) (x : Subject) : (p.raise k x).units = p.units := Part.takeReport_units p _
@[simp] theorem Part.raise_windows (p : Part) (k : ReportKind) (x : Subject) : (p.raise k x).windows = p.windows := Part.takeReport_windows p _
@[simp] theorem Part.raise_filters (p : Part) (k : ReportKind) (x : Subject) : (p.raise k x).filters = p.filters := Part.takeReport_filters p _
@[simp] theorem Part.raise_parsers (p : Part) (k : ReportKind) (x : Subject) : (p.raise k x).parsers = p.parsers := Part.takeReport_parsers p _
@[simp] theorem Part.raise_transit (p : Part) (k : ReportKind) (x : Subject) : (p.raise k x).transit = p.transit := Part.takeReport_transit p _
@[simp] theorem Part.raise_slots (p : Part) (k : ReportKind) (x : Subject) : (p.raise k x).slots = p.slots := Part.takeReport_slots p _
@[simp] theorem Part.raise_orphans (p : Part) (k : ReportKind) (x : Subject) : (p.raise k x).orphans = p.orphans := Part.takeReport_orphans p _
@[simp] theorem Part.raise_plates (p : Part) (k : ReportKind) (x : Subject) : (p.raise k x).plates = p.plates := Part.takeReport_plates p _
@[simp] theorem Part.raise_channels (p : Part) (k : ReportKind) (x : Subject) : (p.raise k x).channels = p.channels := Part.takeReport_channels p _
@[simp] theorem Part.raise_sets (p : Part) (k : ReportKind) (x : Subject) : (p.raise k x).sets = p.sets := Part.takeReport_sets p _
@[simp] theorem Part.raise_owners (p : Part) (k : ReportKind) (x : Subject) : (p.raise k x).owners = p.owners := Part.takeReport_owners p _

/-! ## orphanDropped -/

@[simp] theorem Part.orphanDropped_cabase (p : Part) (o : Orphan) (c : DropCause) (t : Option Trample) : (p.orphanDropped o c t).cabase = p.cabase := Part.raise_cabase p _ _
@[simp] theorem Part.orphanDropped_tkdiv (p : Part) (o : Orphan) (c : DropCause) (t : Option Trample) : (p.orphanDropped o c t).tkdiv = p.tkdiv := Part.raise_tkdiv p _ _
@[simp] theorem Part.orphanDropped_sweep (p : Part) (o : Orphan) (c : DropCause) (t : Option Trample) : (p.orphanDropped o c t).sweep = p.sweep := Part.raise_sweep p _ _
@[simp] theorem Part.orphanDropped_tick (p : Part) (o : Orphan) (c : DropCause) (t : Option Trample) : (p.orphanDropped o c t).tick = p.tick := Part.raise_tick p _ _
@[simp] theorem Part.orphanDropped_freeReads (p : Part) (o : Orphan) (c : DropCause) (t : Option Trample) : (p.orphanDropped o c t).freeReads = p.freeReads := Part.raise_freeReads p _ _
@[simp] theorem Part.orphanDropped_params (p : Part) (o : Orphan) (c : DropCause) (t : Option Trample) : (p.orphanDropped o c t).params = p.params := Part.raise_params p _ _
@[simp] theorem Part.orphanDropped_units (p : Part) (o : Orphan) (c : DropCause) (t : Option Trample) : (p.orphanDropped o c t).units = p.units := Part.raise_units p _ _
@[simp] theorem Part.orphanDropped_windows (p : Part) (o : Orphan) (c : DropCause) (t : Option Trample) : (p.orphanDropped o c t).windows = p.windows := Part.raise_windows p _ _
@[simp] theorem Part.orphanDropped_filters (p : Part) (o : Orphan) (c : DropCause) (t : Option Trample) : (p.orphanDropped o c t).filters = p.filters := Part.raise_filters p _ _
@[simp] theorem Part.orphanDropped_parsers (p : Part) (o : Orphan) (c : DropCause) (t : Option Trample) : (p.orphanDropped o c t).parsers = p.parsers := Part.raise_parsers p _ _
@[simp] theorem Part.orphanDropped_transit (p : Part) (o : Orphan) (c : DropCause) (t : Option Trample) : (p.orphanDropped o c t).transit = p.transit := Part.raise_transit p _ _
@[simp] theorem Part.orphanDropped_slots (p : Part) (o : Orphan) (c : DropCause) (t : Option Trample) : (p.orphanDropped o c t).slots = p.slots := Part.raise_slots p _ _
@[simp] theorem Part.orphanDropped_orphans (p : Part) (o : Orphan) (c : DropCause) (t : Option Trample) : (p.orphanDropped o c t).orphans = p.orphans := Part.raise_orphans p _ _
@[simp] theorem Part.orphanDropped_plates (p : Part) (o : Orphan) (c : DropCause) (t : Option Trample) : (p.orphanDropped o c t).plates = p.plates := Part.raise_plates p _ _
@[simp] theorem Part.orphanDropped_channels (p : Part) (o : Orphan) (c : DropCause) (t : Option Trample) : (p.orphanDropped o c t).channels = p.channels := Part.raise_channels p _ _
@[simp] theorem Part.orphanDropped_sets (p : Part) (o : Orphan) (c : DropCause) (t : Option Trample) : (p.orphanDropped o c t).sets = p.sets := Part.raise_sets p _ _
@[simp] theorem Part.orphanDropped_owners (p : Part) (o : Orphan) (c : DropCause) (t : Option Trample) : (p.orphanDropped o c t).owners = p.owners := Part.raise_owners p _ _

/-! ## mirrorWrite -/

@[simp] theorem Part.mirrorWrite_cabase (p : Part) (n : Fin 512) (bs : List Byte) (body : List Nat) : (p.mirrorWrite n bs body).cabase = p.cabase := by
  rw [Part.mirrorWrite, Part.mirrorBlock_cabase, foldl_same (fun q : Part => q.cabase) _ fun q b => Part.mirrorBlock_cabase q n _ b, Part.mirrorBlock_cabase]
@[simp] theorem Part.mirrorWrite_tkdiv (p : Part) (n : Fin 512) (bs : List Byte) (body : List Nat) : (p.mirrorWrite n bs body).tkdiv = p.tkdiv := by
  rw [Part.mirrorWrite, Part.mirrorBlock_tkdiv, foldl_same (fun q : Part => q.tkdiv) _ fun q b => Part.mirrorBlock_tkdiv q n _ b, Part.mirrorBlock_tkdiv]
@[simp] theorem Part.mirrorWrite_sweep (p : Part) (n : Fin 512) (bs : List Byte) (body : List Nat) : (p.mirrorWrite n bs body).sweep = p.sweep := by
  rw [Part.mirrorWrite, Part.mirrorBlock_sweep, foldl_same (fun q : Part => q.sweep) _ fun q b => Part.mirrorBlock_sweep q n _ b, Part.mirrorBlock_sweep]
@[simp] theorem Part.mirrorWrite_tick (p : Part) (n : Fin 512) (bs : List Byte) (body : List Nat) : (p.mirrorWrite n bs body).tick = p.tick := by
  rw [Part.mirrorWrite, Part.mirrorBlock_tick, foldl_same (fun q : Part => q.tick) _ fun q b => Part.mirrorBlock_tick q n _ b, Part.mirrorBlock_tick]
@[simp] theorem Part.mirrorWrite_freeReads (p : Part) (n : Fin 512) (bs : List Byte) (body : List Nat) : (p.mirrorWrite n bs body).freeReads = p.freeReads := by
  rw [Part.mirrorWrite, Part.mirrorBlock_freeReads, foldl_same (fun q : Part => q.freeReads) _ fun q b => Part.mirrorBlock_freeReads q n _ b, Part.mirrorBlock_freeReads]
@[simp] theorem Part.mirrorWrite_reports (p : Part) (n : Fin 512) (bs : List Byte) (body : List Nat) : (p.mirrorWrite n bs body).reports = p.reports := by
  rw [Part.mirrorWrite, Part.mirrorBlock_reports, foldl_same (fun q : Part => q.reports) _ fun q b => Part.mirrorBlock_reports q n _ b, Part.mirrorBlock_reports]
@[simp] theorem Part.mirrorWrite_params (p : Part) (n : Fin 512) (bs : List Byte) (body : List Nat) : (p.mirrorWrite n bs body).params = p.params := by
  rw [Part.mirrorWrite, Part.mirrorBlock_params, foldl_same (fun q : Part => q.params) _ fun q b => Part.mirrorBlock_params q n _ b, Part.mirrorBlock_params]
@[simp] theorem Part.mirrorWrite_units (p : Part) (n : Fin 512) (bs : List Byte) (body : List Nat) : (p.mirrorWrite n bs body).units = p.units := by
  rw [Part.mirrorWrite, Part.mirrorBlock_units, foldl_same (fun q : Part => q.units) _ fun q b => Part.mirrorBlock_units q n _ b, Part.mirrorBlock_units]
@[simp] theorem Part.mirrorWrite_windows (p : Part) (n : Fin 512) (bs : List Byte) (body : List Nat) : (p.mirrorWrite n bs body).windows = p.windows := by
  rw [Part.mirrorWrite, Part.mirrorBlock_windows, foldl_same (fun q : Part => q.windows) _ fun q b => Part.mirrorBlock_windows q n _ b, Part.mirrorBlock_windows]
@[simp] theorem Part.mirrorWrite_filters (p : Part) (n : Fin 512) (bs : List Byte) (body : List Nat) : (p.mirrorWrite n bs body).filters = p.filters := by
  rw [Part.mirrorWrite, Part.mirrorBlock_filters, foldl_same (fun q : Part => q.filters) _ fun q b => Part.mirrorBlock_filters q n _ b, Part.mirrorBlock_filters]
@[simp] theorem Part.mirrorWrite_parsers (p : Part) (n : Fin 512) (bs : List Byte) (body : List Nat) : (p.mirrorWrite n bs body).parsers = p.parsers := by
  rw [Part.mirrorWrite, Part.mirrorBlock_parsers, foldl_same (fun q : Part => q.parsers) _ fun q b => Part.mirrorBlock_parsers q n _ b, Part.mirrorBlock_parsers]
@[simp] theorem Part.mirrorWrite_transit (p : Part) (n : Fin 512) (bs : List Byte) (body : List Nat) : (p.mirrorWrite n bs body).transit = p.transit := by
  rw [Part.mirrorWrite, Part.mirrorBlock_transit, foldl_same (fun q : Part => q.transit) _ fun q b => Part.mirrorBlock_transit q n _ b, Part.mirrorBlock_transit]
@[simp] theorem Part.mirrorWrite_orphans (p : Part) (n : Fin 512) (bs : List Byte) (body : List Nat) : (p.mirrorWrite n bs body).orphans = p.orphans := by
  rw [Part.mirrorWrite, Part.mirrorBlock_orphans, foldl_same (fun q : Part => q.orphans) _ fun q b => Part.mirrorBlock_orphans q n _ b, Part.mirrorBlock_orphans]
@[simp] theorem Part.mirrorWrite_plates (p : Part) (n : Fin 512) (bs : List Byte) (body : List Nat) : (p.mirrorWrite n bs body).plates = p.plates := by
  rw [Part.mirrorWrite, Part.mirrorBlock_plates, foldl_same (fun q : Part => q.plates) _ fun q b => Part.mirrorBlock_plates q n _ b, Part.mirrorBlock_plates]
@[simp] theorem Part.mirrorWrite_channels (p : Part) (n : Fin 512) (bs : List Byte) (body : List Nat) : (p.mirrorWrite n bs body).channels = p.channels := by
  rw [Part.mirrorWrite, Part.mirrorBlock_channels, foldl_same (fun q : Part => q.channels) _ fun q b => Part.mirrorBlock_channels q n _ b, Part.mirrorBlock_channels]
@[simp] theorem Part.mirrorWrite_sets (p : Part) (n : Fin 512) (bs : List Byte) (body : List Nat) : (p.mirrorWrite n bs body).sets = p.sets := by
  rw [Part.mirrorWrite, Part.mirrorBlock_sets, foldl_same (fun q : Part => q.sets) _ fun q b => Part.mirrorBlock_sets q n _ b, Part.mirrorBlock_sets]
@[simp] theorem Part.mirrorWrite_owners (p : Part) (n : Fin 512) (bs : List Byte) (body : List Nat) : (p.mirrorWrite n bs body).owners = p.owners := by
  rw [Part.mirrorWrite, Part.mirrorBlock_owners, foldl_same (fun q : Part => q.owners) _ fun q b => Part.mirrorBlock_owners q n _ b, Part.mirrorBlock_owners]
@[simp] theorem Part.mirrorWrite_slots (p : Part) (n : Fin 512) (bs : List Byte) (body : List Nat) : (p.mirrorWrite n bs body).slots = p.slots := by
  rw [Part.mirrorWrite, Part.mirrorBlock_slots, foldl_same (fun q : Part => q.slots) _ fun q b => Part.mirrorBlock_slots q n _ b, Part.mirrorBlock_slots]

/-! ## changeSlot -/

@[simp] theorem Part.changeSlot_cabase (p : Part) (n : Fin 512) (f : Slot → Slot) : (p.changeSlot n f).cabase = p.cabase :=
  Part.mirrorWrite_cabase _ n _ _
@[simp] theorem Part.changeSlot_tkdiv (p : Part) (n : Fin 512) (f : Slot → Slot) : (p.changeSlot n f).tkdiv = p.tkdiv :=
  Part.mirrorWrite_tkdiv _ n _ _
@[simp] theorem Part.changeSlot_sweep (p : Part) (n : Fin 512) (f : Slot → Slot) : (p.changeSlot n f).sweep = p.sweep :=
  Part.mirrorWrite_sweep _ n _ _
@[simp] theorem Part.changeSlot_tick (p : Part) (n : Fin 512) (f : Slot → Slot) : (p.changeSlot n f).tick = p.tick :=
  Part.mirrorWrite_tick _ n _ _
@[simp] theorem Part.changeSlot_freeReads (p : Part) (n : Fin 512) (f : Slot → Slot) : (p.changeSlot n f).freeReads = p.freeReads :=
  Part.mirrorWrite_freeReads _ n _ _
@[simp] theorem Part.changeSlot_reports (p : Part) (n : Fin 512) (f : Slot → Slot) : (p.changeSlot n f).reports = p.reports :=
  Part.mirrorWrite_reports _ n _ _
@[simp] theorem Part.changeSlot_params (p : Part) (n : Fin 512) (f : Slot → Slot) : (p.changeSlot n f).params = p.params :=
  Part.mirrorWrite_params _ n _ _
@[simp] theorem Part.changeSlot_units (p : Part) (n : Fin 512) (f : Slot → Slot) : (p.changeSlot n f).units = p.units :=
  Part.mirrorWrite_units _ n _ _
@[simp] theorem Part.changeSlot_windows (p : Part) (n : Fin 512) (f : Slot → Slot) : (p.changeSlot n f).windows = p.windows :=
  Part.mirrorWrite_windows _ n _ _
@[simp] theorem Part.changeSlot_filters (p : Part) (n : Fin 512) (f : Slot → Slot) : (p.changeSlot n f).filters = p.filters :=
  Part.mirrorWrite_filters _ n _ _
@[simp] theorem Part.changeSlot_parsers (p : Part) (n : Fin 512) (f : Slot → Slot) : (p.changeSlot n f).parsers = p.parsers :=
  Part.mirrorWrite_parsers _ n _ _
@[simp] theorem Part.changeSlot_transit (p : Part) (n : Fin 512) (f : Slot → Slot) : (p.changeSlot n f).transit = p.transit :=
  Part.mirrorWrite_transit _ n _ _
@[simp] theorem Part.changeSlot_orphans (p : Part) (n : Fin 512) (f : Slot → Slot) : (p.changeSlot n f).orphans = p.orphans :=
  Part.mirrorWrite_orphans _ n _ _
@[simp] theorem Part.changeSlot_plates (p : Part) (n : Fin 512) (f : Slot → Slot) : (p.changeSlot n f).plates = p.plates :=
  Part.mirrorWrite_plates _ n _ _
@[simp] theorem Part.changeSlot_channels (p : Part) (n : Fin 512) (f : Slot → Slot) : (p.changeSlot n f).channels = p.channels :=
  Part.mirrorWrite_channels _ n _ _
@[simp] theorem Part.changeSlot_sets (p : Part) (n : Fin 512) (f : Slot → Slot) : (p.changeSlot n f).sets = p.sets :=
  Part.mirrorWrite_sets _ n _ _
@[simp] theorem Part.changeSlot_owners (p : Part) (n : Fin 512) (f : Slot → Slot) : (p.changeSlot n f).owners = p.owners :=
  Part.mirrorWrite_owners _ n _ _

/-! ## takePin -/

@[simp] theorem Part.takePin_cabase (p : Part) (n : Fin 512) : (p.takePin n).cabase = p.cabase := Part.changeSlot_cabase p n _
@[simp] theorem Part.takePin_tkdiv (p : Part) (n : Fin 512) : (p.takePin n).tkdiv = p.tkdiv := Part.changeSlot_tkdiv p n _
@[simp] theorem Part.takePin_sweep (p : Part) (n : Fin 512) : (p.takePin n).sweep = p.sweep := Part.changeSlot_sweep p n _
@[simp] theorem Part.takePin_tick (p : Part) (n : Fin 512) : (p.takePin n).tick = p.tick := Part.changeSlot_tick p n _
@[simp] theorem Part.takePin_freeReads (p : Part) (n : Fin 512) : (p.takePin n).freeReads = p.freeReads := Part.changeSlot_freeReads p n _
@[simp] theorem Part.takePin_reports (p : Part) (n : Fin 512) : (p.takePin n).reports = p.reports := Part.changeSlot_reports p n _
@[simp] theorem Part.takePin_params (p : Part) (n : Fin 512) : (p.takePin n).params = p.params := Part.changeSlot_params p n _
@[simp] theorem Part.takePin_units (p : Part) (n : Fin 512) : (p.takePin n).units = p.units := Part.changeSlot_units p n _
@[simp] theorem Part.takePin_windows (p : Part) (n : Fin 512) : (p.takePin n).windows = p.windows := Part.changeSlot_windows p n _
@[simp] theorem Part.takePin_filters (p : Part) (n : Fin 512) : (p.takePin n).filters = p.filters := Part.changeSlot_filters p n _
@[simp] theorem Part.takePin_parsers (p : Part) (n : Fin 512) : (p.takePin n).parsers = p.parsers := Part.changeSlot_parsers p n _
@[simp] theorem Part.takePin_transit (p : Part) (n : Fin 512) : (p.takePin n).transit = p.transit := Part.changeSlot_transit p n _
@[simp] theorem Part.takePin_orphans (p : Part) (n : Fin 512) : (p.takePin n).orphans = p.orphans := Part.changeSlot_orphans p n _
@[simp] theorem Part.takePin_plates (p : Part) (n : Fin 512) : (p.takePin n).plates = p.plates := Part.changeSlot_plates p n _
@[simp] theorem Part.takePin_channels (p : Part) (n : Fin 512) : (p.takePin n).channels = p.channels := Part.changeSlot_channels p n _
@[simp] theorem Part.takePin_sets (p : Part) (n : Fin 512) : (p.takePin n).sets = p.sets := Part.changeSlot_sets p n _
@[simp] theorem Part.takePin_owners (p : Part) (n : Fin 512) : (p.takePin n).owners = p.owners := Part.changeSlot_owners p n _

/-! ## countDamage -/

@[simp] theorem Part.countDamage_cabase (p : Part) (k : Nat) : (p.countDamage k).cabase = p.cabase := by
  unfold Part.countDamage
  dsimp only
  split
  · rw [Part.headerWrite_cabase, Part.setReports_cabase]
  · rfl
@[simp] theorem Part.countDamage_tkdiv (p : Part) (k : Nat) : (p.countDamage k).tkdiv = p.tkdiv := by
  unfold Part.countDamage
  dsimp only
  split
  · rw [Part.headerWrite_tkdiv, Part.setReports_tkdiv]
  · rfl
@[simp] theorem Part.countDamage_sweep (p : Part) (k : Nat) : (p.countDamage k).sweep = p.sweep := by
  unfold Part.countDamage
  dsimp only
  split
  · rw [Part.headerWrite_sweep, Part.setReports_sweep]
  · rfl
@[simp] theorem Part.countDamage_tick (p : Part) (k : Nat) : (p.countDamage k).tick = p.tick := by
  unfold Part.countDamage
  dsimp only
  split
  · rw [Part.headerWrite_tick, Part.setReports_tick]
  · rfl
@[simp] theorem Part.countDamage_freeReads (p : Part) (k : Nat) : (p.countDamage k).freeReads = p.freeReads := by
  unfold Part.countDamage
  dsimp only
  split
  · rw [Part.headerWrite_freeReads, Part.setReports_freeReads]
  · rfl
@[simp] theorem Part.countDamage_params (p : Part) (k : Nat) : (p.countDamage k).params = p.params := by
  unfold Part.countDamage
  dsimp only
  split
  · rw [Part.headerWrite_params, Part.setReports_params]
  · rfl
@[simp] theorem Part.countDamage_units (p : Part) (k : Nat) : (p.countDamage k).units = p.units := by
  unfold Part.countDamage
  dsimp only
  split
  · rw [Part.headerWrite_units, Part.setReports_units]
  · rfl
@[simp] theorem Part.countDamage_windows (p : Part) (k : Nat) : (p.countDamage k).windows = p.windows := by
  unfold Part.countDamage
  dsimp only
  split
  · rw [Part.headerWrite_windows, Part.setReports_windows]
  · rfl
@[simp] theorem Part.countDamage_filters (p : Part) (k : Nat) : (p.countDamage k).filters = p.filters := by
  unfold Part.countDamage
  dsimp only
  split
  · rw [Part.headerWrite_filters, Part.setReports_filters]
  · rfl
@[simp] theorem Part.countDamage_parsers (p : Part) (k : Nat) : (p.countDamage k).parsers = p.parsers := by
  unfold Part.countDamage
  dsimp only
  split
  · rw [Part.headerWrite_parsers, Part.setReports_parsers]
  · rfl
@[simp] theorem Part.countDamage_transit (p : Part) (k : Nat) : (p.countDamage k).transit = p.transit := by
  unfold Part.countDamage
  dsimp only
  split
  · rw [Part.headerWrite_transit, Part.setReports_transit]
  · rfl
@[simp] theorem Part.countDamage_slots (p : Part) (k : Nat) : (p.countDamage k).slots = p.slots := by
  unfold Part.countDamage
  dsimp only
  split
  · rw [Part.headerWrite_slots, Part.setReports_slots]
  · rfl
@[simp] theorem Part.countDamage_orphans (p : Part) (k : Nat) : (p.countDamage k).orphans = p.orphans := by
  unfold Part.countDamage
  dsimp only
  split
  · rw [Part.headerWrite_orphans, Part.setReports_orphans]
  · rfl
@[simp] theorem Part.countDamage_plates (p : Part) (k : Nat) : (p.countDamage k).plates = p.plates := by
  unfold Part.countDamage
  dsimp only
  split
  · rw [Part.headerWrite_plates, Part.setReports_plates]
  · rfl
@[simp] theorem Part.countDamage_channels (p : Part) (k : Nat) : (p.countDamage k).channels = p.channels := by
  unfold Part.countDamage
  dsimp only
  split
  · rw [Part.headerWrite_channels, Part.setReports_channels]
  · rfl
@[simp] theorem Part.countDamage_sets (p : Part) (k : Nat) : (p.countDamage k).sets = p.sets := by
  unfold Part.countDamage
  dsimp only
  split
  · rw [Part.headerWrite_sets, Part.setReports_sets]
  · rfl
@[simp] theorem Part.countDamage_owners (p : Part) (k : Nat) : (p.countDamage k).owners = p.owners := by
  unfold Part.countDamage
  dsimp only
  split
  · rw [Part.headerWrite_owners, Part.setReports_owners]
  · rfl

/-! ## The slot a change leaves -/

/-- A changed slot: the change applied and the change number advanced (R48). -/
@[simp] theorem Part.changeSlot_slots (p : Part) (n : Fin 512) (f : Slot → Slot) :
    (p.changeSlot n f).slots = (p.setSlot n { f p.slots[n] with change := p.slots[n].change + 1 }).slots :=
  Part.mirrorWrite_slots _ n _ _

theorem Part.changeSlot_get (p : Part) (n : Fin 512) (f : Slot → Slot) :
    (p.changeSlot n f).slots[n] = { f p.slots[n] with change := p.slots[n].change + 1 } := by
  rw [Part.changeSlot_slots, Part.setSlot_get]

theorem Part.changeSlot_get_ne (p : Part) (n m : Fin 512) (f : Slot → Slot) (h : m ≠ n) :
    (p.changeSlot n f).slots[m] = p.slots[m] := by
  rw [Part.changeSlot_slots, Part.setSlot_get_ne p n _ m h]

/-! ## Results -/

/-- An own write leaves every record's unit. -/
theorem Part.own_unit (p : Part) (w : OwnWrite) (off : Nat) (bs : List Byte) (r : RecordId) :
    (p.own w off bs).unit r = p.unit r :=
  congrArg (fun us : Vector CmdUnit 106 => us[r.number]) (Part.own_units p w off bs)

/-- A rewrite of the status header leaves every record's unit. -/
theorem Part.headerWrite_unit (p : Part) (g : HeaderGroup) (r : RecordId) : (p.headerWrite g).unit r = p.unit r :=
  congrArg (fun us : Vector CmdUnit 106 => us[r.number]) (Part.headerWrite_units p g)

/-- A finished command: its lock has ended and its result fields hold the tag, the code and the detail (R178, R179). -/
theorem Part.finish_unit (p : Part) (r : RecordId) (c : ResultCode) (d : Nat) :
    (p.finish r c d).unit r
      = { p.unit r with stage := .unlocked
                        result := { tag := (p.unit r).tag, code := c, detail := BitVec.ofNat 32 d } } := by
  unfold Part.finish
  dsimp only
  split
  · rw [Part.headerWrite_unit, Part.unit_setRecord]
  · rw [Part.own_unit, Part.unit_setRecord]

theorem Part.finish_unit_ne (p : Part) (r r' : RecordId) (c : ResultCode) (d : Nat) (h : r' ≠ r) :
    (p.finish r c d).unit r' = p.unit r' := by
  unfold Part.finish
  dsimp only
  split
  · rw [Part.headerWrite_unit, Part.unit_setRecord_ne p _ _ _ h]
  · rw [Part.own_unit, Part.unit_setRecord_ne p _ _ _ h]

/-- The same with a free detail word; it says nothing about which word it is. -/
theorem Part.finishFree_unit (p : Part) (r : RecordId) (c : ResultCode) :
    ∃ w : Word, (p.finishFree r c).unit r
      = { p.unit r with stage := .unlocked, result := { tag := (p.unit r).tag, code := c, detail := w } } :=
  ⟨_, Part.finish_unit { p with freeReads := p.freeReads + 1 } r c _⟩

theorem Part.finishFree_unit_ne (p : Part) (r r' : RecordId) (c : ResultCode) (h : r' ≠ r) :
    (p.finishFree r c).unit r' = p.unit r' :=
  Part.finish_unit_ne { p with freeReads := p.freeReads + 1 } r r' c _ h

/-! ## Reports (R189, R191, R196) -/

/-- A suppressed report is dropped. -/
theorem Part.takeReport_suppressed (p : Part) (r : Report) (h : p.params.suppressed r.kind.cls = true) :
    p.takeReport r = p := by
  simp [Part.takeReport, h]

/-- A report taken before STARTED with room in the hold queue joins it. -/
theorem Part.takeReport_held (p : Part) (r : Report) (h : p.params.suppressed r.kind.cls = false)
    (hs : p.sweeping = true) (hr : p.reports.hold.length < Config.holdRoom) :
    p.takeReport r = p.setReports { p.reports with hold := p.reports.hold ++ [r] } := by
  simp [Part.takeReport, h, hs, hr]

/-- A report taken with the ring full is lost. -/
theorem Part.takeReport_lost (p : Part) (r : Report) (h : p.params.suppressed r.kind.cls = false)
    (hs : p.sweeping = false) (hr : Config.ringEntries ≤ p.reports.unread) : p.takeReport r = p.lose := by
  simp [Part.takeReport, h, hs, hr]

/-- A report taken with room is written. -/
theorem Part.takeReport_written (p : Part) (r : Report) (h : p.params.suppressed r.kind.cls = false)
    (hs : p.sweeping = false) (hr : p.reports.unread < Config.ringEntries) : p.takeReport r = p.writeReport r := by
  simp [Part.takeReport, h, hs, Nat.not_le.mpr hr]

end Sys2Proof.Machine
end

