-- ==== Sys2Proof/Laws/Memory.lean ====
section
/-! SUPPORT. Board memory and tile memory: reads after writes, and the canonical form that every operation keeps. -/

namespace Sys2Proof.Machine

variable {α : Type} [DecidableEq α]

/-! ## One entry -/

omit [DecidableEq α] in
/-- Where every listed key lies above `a`, `a` is not listed. -/
theorem Store.read_of_lt (d : α) : ∀ (m : List (Nat × α)) (a : Nat), (∀ c ∈ m, a < c.1) → Store.read d m a = d
  | [], _, _ => rfl
  | (k, v) :: m, a, h => by
    have hk : a < k := h (k, v) (by simp)
    have ht := Store.read_of_lt d m a fun c hc => h c (by simp [hc])
    simp [Store.read, Nat.ne_of_lt hk, ht]

/-- A write is read back; every other key reads as before. -/
theorem Store.read_write (d : α) : ∀ (m : List (Nat × α)) (a b : Nat) (v : α), Store.wf d m →
    Store.read d (Store.write d m a v) b = if b = a then v else Store.read d m b
  | [], a, b, v, _ => by
    by_cases hv : v = d <;> by_cases hb : b = a <;> simp [Store.write, Store.read, hv, hb]
  | (k, w) :: m, a, b, v, h => by
    have hm : Store.wf d m :=
      ⟨(List.pairwise_cons.mp h.1).2, fun c hc => h.2 c (by simp [hc])⟩
    have hlt : ∀ c ∈ m, k < c.1 := (List.pairwise_cons.mp h.1).1
    have ih := Store.read_write d m a b v hm
    rcases Nat.lt_trichotomy a k with hak | hak | hak
    · have hnk : a ≠ k := Nat.ne_of_lt hak
      by_cases hv : v = d
      · by_cases hb : b = a
        · subst hb
          have : Store.read d m b = d := Store.read_of_lt d m b fun c hc => Nat.lt_trans hak (hlt c hc)
          simp [Store.write, hak, hv, Store.read, hnk, this]
        · simp [Store.write, hak, hv, hb]
      · by_cases hb : b = a <;> simp [Store.write, hak, hv, Store.read, hb]
    · subst hak
      by_cases hv : v = d
      · by_cases hb : b = a
        · subst hb
          simp [Store.write, hv, Store.read_of_lt d m b hlt]
        · simp [Store.write, hv, Store.read, hb]
      · by_cases hb : b = a <;> simp [Store.write, hv, Store.read, hb]
    · have h1 : ¬ a < k := by omega
      have h2 : a ≠ k := by omega
      by_cases hbk : b = k
      · have hka : ¬ k = a := fun e => h2 e.symm
        simp [Store.write, h1, h2, Store.read, hbk, hka]
      · simp [Store.write, h1, h2, Store.read, hbk, ih]

/-- Another key reads as before, in any store. -/
theorem Store.read_write_ne (d : α) (a b : Nat) (v : α) (hb : b ≠ a) : ∀ m : List (Nat × α),
    Store.read d (Store.write d m a v) b = Store.read d m b
  | [] => by
    by_cases hv : v = d <;> simp [Store.write, Store.read, hv, hb]
  | (k, w) :: m => by
    have ih := Store.read_write_ne d a b v hb m
    unfold Store.write
    split
    · split
      · rfl
      · simp [Store.read, hb]
    · split
      · rename_i hk
        subst hk
        split <;> simp [Store.read, hb]
      · simp [Store.read, ih]

/-- The keys of a write are those of the store and the key written. -/
theorem Store.mem_write (d : α) : ∀ (m : List (Nat × α)) (a : Nat) (v : α) (c : Nat × α),
    c ∈ Store.write d m a v → c ∈ m ∨ (c = (a, v) ∧ v ≠ d)
  | [], a, v, c, h => by
    by_cases hv : v = d <;> simp_all [Store.write]
  | (k, w) :: m, a, v, c, h => by
    unfold Store.write at h
    split at h
    · split at h
      · exact Or.inl h
      · rcases List.mem_cons.mp h with h | h
        · exact Or.inr ⟨h, by assumption⟩
        · exact Or.inl h
    · split at h
      · split at h
        · exact Or.inl (by simp [h])
        · rcases List.mem_cons.mp h with h | h
          · exact Or.inr ⟨h, by assumption⟩
          · exact Or.inl (by simp [h])
      · rcases List.mem_cons.mp h with h | h
        · exact Or.inl (by simp [h])
        · rcases Store.mem_write d m a v c h with h | h
          · exact Or.inl (by simp [h])
          · exact Or.inr h

/-- A write keeps the canonical form. -/
theorem Store.wf_write (d : α) : ∀ (m : List (Nat × α)) (a : Nat) (v : α), Store.wf d m →
    Store.wf d (Store.write d m a v)
  | [], a, v, _ => by
    by_cases hv : v = d <;> simp [Store.write, Store.wf, hv]
  | (k, w) :: m, a, v, h => by
    have hlt : ∀ c ∈ m, k < c.1 := (List.pairwise_cons.mp h.1).1
    have hpw := (List.pairwise_cons.mp h.1).2
    have hm : Store.wf d m := ⟨hpw, fun c hc => h.2 c (by simp [hc])⟩
    have hw : w ≠ d := h.2 (k, w) (by simp)
    have ih := Store.wf_write d m a v hm
    unfold Store.write
    split
    · rename_i hak
      split
      · exact h
      · rename_i hv
        refine ⟨List.pairwise_cons.mpr ⟨?_, h.1⟩, ?_⟩
        · intro c hc
          rcases List.mem_cons.mp hc with rfl | hc
          · exact hak
          · exact Nat.lt_trans hak (hlt c hc)
        · intro c hc
          rcases List.mem_cons.mp hc with rfl | hc
          · exact hv
          · exact h.2 c hc
    · rename_i hak
      split
      · rename_i hk
        split
        · exact hm
        · rename_i hv
          refine ⟨List.pairwise_cons.mpr ⟨?_, hpw⟩, ?_⟩
          · intro c hc
            have := hlt c hc
            omega
          · intro c hc
            rcases List.mem_cons.mp hc with rfl | hc
            · exact hv
            · exact hm.2 c hc
      · rename_i hk
        refine ⟨List.pairwise_cons.mpr ⟨?_, ih.1⟩, ?_⟩
        · intro c hc
          rcases Store.mem_write d m a v c hc with hc | ⟨rfl, _⟩
          · exact hlt c hc
          · show k < a
            omega
        · intro c hc
          rcases List.mem_cons.mp hc with rfl | hc
          · exact hw
          · exact ih.2 c hc

/-! ## Runs of keys -/

theorem Store.wf_writeList (d : α) : ∀ (vs : List α) (m : List (Nat × α)) (a : Nat), Store.wf d m →
    Store.wf d (Store.writeList d m a vs)
  | [], _, _, h => h
  | v :: vs, m, a, h => Store.wf_writeList d vs _ _ (Store.wf_write d m a v h)

/-- A key outside the run reads as before. -/
theorem Store.read_writeList_of_outside (d : α) : ∀ (vs : List α) (m : List (Nat × α)) (a b : Nat),
    (b < a ∨ a + vs.length ≤ b) → Store.read d (Store.writeList d m a vs) b = Store.read d m b
  | [], _, _, _, _ => rfl
  | v :: vs, m, a, b, hb => by
    have hb' : b < a + 1 ∨ a + 1 + vs.length ≤ b := by
      simp only [List.length_cons] at hb
      omega
    have hne : b ≠ a := by
      simp only [List.length_cons] at hb
      omega
    rw [Store.writeList, Store.read_writeList_of_outside d vs _ _ _ hb', Store.read_write_ne d a b v hne m]

/-- A key inside the run reads the value written to it. -/
theorem Store.read_writeList_inside (d : α) : ∀ (vs : List α) (m : List (Nat × α)) (a i : Nat) (hi : i < vs.length),
    Store.wf d m → Store.read d (Store.writeList d m a vs) (a + i) = vs[i]
  | v :: vs, m, a, 0, _, h => by
    show Store.read d (Store.writeList d (Store.write d m a v) (a + 1) vs) a = v
    rw [Store.read_writeList_of_outside d vs (Store.write d m a v) (a + 1) a
        (Or.inl (Nat.lt_succ_self a)),
      Store.read_write d m a a v h, if_pos rfl]
  | v :: vs, m, a, i + 1, hi, h => by
    have := Store.read_writeList_inside d vs (Store.write d m a v) (a + 1) i
      (by simpa using hi) (Store.wf_write d m a v h)
    rw [Store.writeList, show a + (i + 1) = a + 1 + i by omega, this]
    rfl

/-! ## Board memory -/

theorem Memory.wf_nil : Memory.wf [] := ⟨List.Pairwise.nil, fun _ h => absurd h (by simp)⟩

theorem Memory.wf_write (m : Memory) (a : Nat) (b : Byte) (h : Memory.wf m) : Memory.wf (m.write a b) :=
  Store.wf_write _ m a b h

theorem Memory.wf_writeBytes (m : Memory) (a : Nat) (bs : List Byte) (h : Memory.wf m) :
    Memory.wf (m.writeBytes a bs) :=
  Store.wf_writeList _ bs m a h

theorem Memory.read_write (m : Memory) (a b : Nat) (v : Byte) (h : Memory.wf m) :
    (m.write a v).read b = if b = a then v else m.read b :=
  Store.read_write _ m a b v h

theorem Memory.read_writeBytes_of_outside (m : Memory) (a b : Nat) (bs : List Byte)
    (hb : b < a ∨ a + bs.length ≤ b) : (m.writeBytes a bs).read b = m.read b :=
  Store.read_writeList_of_outside _ bs m a b hb

theorem Memory.read_writeBytes_inside (m : Memory) (a i : Nat) (bs : List Byte) (hi : i < bs.length)
    (h : Memory.wf m) : (m.writeBytes a bs).read (a + i) = bs[i] :=
  Store.read_writeList_inside _ bs m a i hi h

/-- What has been written is read back. -/
theorem Memory.readBytes_writeBytes (m : Memory) (a : Nat) (bs : List Byte) (h : Memory.wf m) :
    (m.writeBytes a bs).readBytes a bs.length = bs := by
  apply List.ext_getElem
  · simp [Memory.readBytes]
  · intro i h1 h2
    simp [Memory.readBytes, Memory.read_writeBytes_inside m a i bs h2 h]

/-- The strobed writes over a list of byte positions. -/
theorem Memory.foldStrobed (a : Nat) (data : Vector Byte 64) (strobes : BitVec 64) :
    ∀ (ks : List (Fin 64)) (m : Memory), Memory.wf m →
      Memory.wf (ks.foldl (fun m (k : Fin 64) => if strobes.getLsbD k then m.write (a + k) data[k] else m) m)
  | [], _, h => h
  | k :: ks, m, h => by
    refine Memory.foldStrobed a data strobes ks _ ?_
    dsimp only
    by_cases hs : strobes.getLsbD k
    · rw [if_pos hs]
      exact Memory.wf_write m _ _ h
    · rw [if_neg hs]
      exact h

theorem Memory.wf_writeStrobed (m : Memory) (a : Nat) (data : Vector Byte 64) (strobes : BitVec 64)
    (h : Memory.wf m) : Memory.wf (m.writeStrobed a data strobes) :=
  Memory.foldStrobed a data strobes _ m h

/-- A byte that none of the positions of a strobed write reaches. -/
theorem Memory.read_foldStrobed_of_outside (a b : Nat) (data : Vector Byte 64) (strobes : BitVec 64)
    (hb : b < a ∨ a + 64 ≤ b) : ∀ (ks : List (Fin 64)) (m : Memory),
      (ks.foldl (fun m (k : Fin 64) => if strobes.getLsbD k then m.write (a + k) data[k] else m) m).read b = m.read b
  | [], _ => rfl
  | k :: ks, m => by
    have hk := k.isLt
    have hne : b ≠ a + k.val := by omega
    by_cases hs : strobes.getLsbD k.val
    · have := Memory.read_foldStrobed_of_outside a b data strobes hb ks (m.write (a + k) data[k])
      simp only [List.foldl_cons, hs, if_true]
      rw [this, Memory.write, Memory.read, Store.read_write_ne _ _ _ _ hne]
      rfl
    · have := Memory.read_foldStrobed_of_outside a b data strobes hb ks m
      simp only [List.foldl_cons, hs]
      simpa using this

theorem Memory.read_writeStrobed_of_outside (m : Memory) (a b : Nat) (data : Vector Byte 64) (strobes : BitVec 64)
    (hb : b < a ∨ a + 64 ≤ b) : (m.writeStrobed a data strobes).read b = m.read b :=
  Memory.read_foldStrobed_of_outside a b data strobes hb _ m

/-- A byte of the block after strobed writes at distinct positions: the data where its position was taken and strobed. -/
theorem Memory.read_foldStrobed_inside (a : Nat) (data : Vector Byte 64) (strobes : BitVec 64) (i : Fin 64) :
    ∀ (ks : List (Fin 64)) (m : Memory), ks.Nodup → Memory.wf m →
      (ks.foldl (fun m (k : Fin 64) => if strobes.getLsbD k then m.write (a + k) data[k] else m) m).read (a + i)
        = if i ∈ ks ∧ strobes.getLsbD i then data[i] else m.read (a + i)
  | [], _, _, _ => by simp
  | k :: ks, m, hn, h => by
    have hnk := (List.nodup_cons.mp hn).1
    have hnt := (List.nodup_cons.mp hn).2
    rw [List.foldl_cons]
    by_cases hs : strobes.getLsbD k.val
    · rw [if_pos hs, Memory.read_foldStrobed_inside a data strobes i ks _ hnt (Memory.wf_write m _ _ h),
        Memory.read_write m _ _ _ h]
      by_cases hik : i = k
      · subst hik
        rw [if_neg (fun x => hnk x.1), if_pos rfl, if_pos ⟨List.mem_cons_self, hs⟩]
      · have hne : a + i.val ≠ a + k.val := fun e => hik (Fin.ext (by omega))
        rw [if_neg hne]
        simp only [List.mem_cons, hik, false_or]
    · rw [if_neg hs, Memory.read_foldStrobed_inside a data strobes i ks m hnt h]
      by_cases hik : i = k
      · subst hik
        rw [if_neg (fun x => hnk x.1), if_neg (fun x => hs x.2)]
      · simp only [List.mem_cons, hik, false_or]

/-- A byte of a block after a strobed write (R167): the data where strobed, else as before. -/
theorem Memory.read_writeStrobed_inside (m : Memory) (a : Nat) (data : Vector Byte 64) (strobes : BitVec 64)
    (i : Fin 64) (h : Memory.wf m) :
    (m.writeStrobed a data strobes).read (a + i) = if strobes.getLsbD i then data[i] else m.read (a + i) := by
  rw [Memory.writeStrobed, Memory.read_foldStrobed_inside a data strobes i _ m (List.nodup_finRange 64) h]
  simp

/-! ## Tile memory -/

theorem TileMemory.wf_nil : TileMemory.wf [] := ⟨List.Pairwise.nil, fun _ h => absurd h (by simp)⟩

theorem TileMemory.wf_store (t : TileMemory) (e : Nat) (vs : List (BitVec 12)) (h : TileMemory.wf t) :
    TileMemory.wf (t.store e vs) :=
  Store.wf_writeList _ vs t e h

theorem TileMemory.read_store_of_outside (t : TileMemory) (e b : Nat) (vs : List (BitVec 12))
    (hb : b < e ∨ e + vs.length ≤ b) : (t.store e vs).read b = t.read b :=
  Store.read_writeList_of_outside _ vs t e b hb

theorem TileMemory.read_store_inside (t : TileMemory) (e i : Nat) (vs : List (BitVec 12)) (hi : i < vs.length)
    (h : TileMemory.wf t) : (t.store e vs).read (e + i) = vs[i] :=
  Store.read_writeList_inside _ vs t e i hi h

/-- The thresholds listed after a tile has been stored are old ones or stored ones. -/
theorem Store.mem_writeList (d : α) : ∀ (vs : List α) (m : List (Nat × α)) (a : Nat) (c : Nat × α),
    c ∈ Store.writeList d m a vs → c ∈ m ∨ c.2 ∈ vs
  | [], _, _, _, h => Or.inl h
  | v :: vs, m, a, c, h => by
    rcases Store.mem_writeList d vs _ _ c h with h | h
    · rcases Store.mem_write d m a v c h with h | ⟨rfl, _⟩
      · exact Or.inl h
      · exact Or.inr (by simp)
    · exact Or.inr (by simp [h])

end Sys2Proof.Machine
end

