-- ==== Sys2Proof/Laws/Records.lean ====
section
/-! SUPPORT. The lengths of the records the part writes, and the lines of the control area they fall in. -/

namespace Sys2Proof.Machine

/-! ## Lengths -/

@[simp] theorem leBytes_length (n v : Nat) : (leBytes n v).length = n := by
  induction n generalizing v with
  | zero => rfl
  | succ n ih => simp [leBytes, ih]

@[simp] theorem zeros_length (n : Nat) : (zeros n).length = n := by simp [zeros]

@[simp] theorem flagByte_length (b : Bool) : (flagByte b).length = 1 := by simp [flagByte]

theorem padTo_length (n : Nat) (bs : List Byte) (h : bs.length ≤ n) : (padTo n bs).length = n := by
  simp [padTo]
  omega

/-- A list of records of one length. -/
theorem flatMap_length {α : Type} (f : α → List Byte) (n : Nat) (h : ∀ x, (f x).length = n) :
    ∀ xs : List α, (xs.flatMap f).length = n * xs.length
  | [] => rfl
  | x :: xs => by
    rw [List.flatMap_cons, List.length_append, h, flatMap_length f n h xs, List.length_cons, Nat.mul_succ,
      Nat.add_comm]

@[simp] theorem ResultFields.bytes_length (r : ResultFields) : r.bytes.length = 8 := by
  simp [ResultFields.bytes]

@[simp] theorem Part.resultBytes_length (p : Part) (r : RecordId) : (p.resultBytes r).length = 8 := by
  simp [Part.resultBytes]

@[simp] theorem Part.paramBytes_length (p : Part) : p.paramBytes.length = 24 := by
  simp [Part.paramBytes]

@[simp] theorem ReportUnit.countBytes_length (r : ReportUnit) : r.countBytes.length = 20 := by
  simp [ReportUnit.countBytes]

@[simp] theorem ReportUnit.damageBytes_length (r : ReportUnit) : r.damageBytes.length = 20 := by
  simp [ReportUnit.damageBytes]

@[simp] theorem Parser.bytes_length (x : Parser) : x.bytes.length = 40 := by
  simp [Parser.bytes]

@[simp] theorem Channel.bytes_length (c : Channel) : c.bytes.length = 16 := by
  simp [Channel.bytes]

@[simp] theorem Window.bytes_length (w : Window) : w.bytes.length = 24 := by
  simp [Window.bytes]

@[simp] theorem FilterEntry.bytes_length (f : FilterEntry) : f.bytes.length = 20 := by
  simp [FilterEntry.bytes]

@[simp] theorem ScreenSet.bytes_length (s : ScreenSet) : s.bytes.length = 54 := by
  simp [ScreenSet.bytes, flatMap_length (leBytes 2) 2 fun x => leBytes_length 2 x]

@[simp] theorem Resolution.bytes_length (r : Resolution) : r.bytes.length = 10 := by
  simp [Resolution.bytes]

@[simp] theorem Summary.bytes_length (s : Summary) : s.bytes.length = 33 := by
  simp [Summary.bytes]

@[simp] theorem Plate.bytes_length (x : Plate) (pos : Position) : (x.bytes pos).length = 56 := by
  simp [Plate.bytes, flatMap_length Resolution.bytes 10 Resolution.bytes_length]

/-- Bytes of a status record. -/
def statusSize : RecordId → Nat
  | .header => 256
  | .plate _ => 128
  | _ => 64

/-- A status record has its size (R205). -/
theorem Part.statusBytes_length (p : Part) (r : RecordId) : (p.statusBytes r).length = statusSize r := by
  cases r with
  | header =>
    simp [Part.statusBytes, statusSize, flatMap_length Parser.bytes 40 Parser.bytes_length,
      flatMap_length Channel.bytes 16 Channel.bytes_length]
  | plate n =>
    show (padTo 64 _ ++ padTo 64 _).length = 128
    rw [List.length_append, padTo_length _ _ (by simp), padTo_length _ _ (by simp)]
  | window n => exact padTo_length _ _ (by simp)
  | filter n => exact padTo_length _ _ (by simp)
  | screenSet n => exact padTo_length _ _ (by simp)
  | directory => exact padTo_length _ _ (by simp)

/-- Bytes of a group of the status header. -/
def groupSize : HeaderGroup → Nat
  | .params => 24
  | .counts => 20
  | .damage => 20
  | .stream _ => 40
  | .channel _ => 16

theorem Part.groupBytes_length (p : Part) (g : HeaderGroup) : (p.groupBytes g).length = groupSize g := by
  cases g <;> simp [Part.groupBytes, groupSize]

/-- A report record is 64 bytes (10, R198). -/
theorem Report.bytes_length (r : Report) (number : Word) : (r.bytes number).length = 64 := by
  rw [Report.bytes, List.length_take, padTo, List.length_append, zeros_length]
  exact Nat.min_eq_left (by omega)

theorem fieldBytes_length_le (bs : List Byte) (off n : Nat) : (fieldBytes bs off n).length ≤ n := by
  simp [fieldBytes]

/-! ## Lines (R202) -/

/-- The region of the control area that the part owns holds these offsets. -/
theorem controlLine_partOwned (o : Nat)
    (h : (0x100 ≤ o ∧ o < 0x200) ∨ (0x1800 ≤ o ∧ o < 0x1C00) ∨ (0x2400 ≤ o ∧ o < 0x2800) ∨ (0x3800 ≤ o ∧ o < 0x3A00)
      ∨ (0x8000 ≤ o ∧ o < 0xA000) ∨ (0xA040 ≤ o ∧ o < 0xA080) ∨ (0x10000 ≤ o ∧ o < 0x18000)
      ∨ (0x20000 ≤ o ∧ o < 0xE0000)) : controlLine o = .partOwned := by
  unfold controlLine
  rcases h with h | h | h | h | h | h | h | h
  · rw [if_neg (show ¬ (o < 0x40) by omega), if_neg (show ¬ (o < 0x80) by omega), if_pos h]
  · rw [if_neg (show ¬ (o < 0x40) by omega), if_neg (show ¬ (o < 0x80) by omega),
      if_neg (show ¬ (0x100 ≤ o ∧ o < 0x200) by omega), if_neg (show ¬ (0x1000 ≤ o ∧ o < 0x1800) by omega),
      if_pos h]
  · rw [if_neg (show ¬ (o < 0x40) by omega), if_neg (show ¬ (o < 0x80) by omega),
      if_neg (show ¬ (0x100 ≤ o ∧ o < 0x200) by omega), if_neg (show ¬ (0x1000 ≤ o ∧ o < 0x1800) by omega),
      if_neg (show ¬ (0x1800 ≤ o ∧ o < 0x1C00) by omega), if_neg (show ¬ (0x2000 ≤ o ∧ o < 0x2400) by omega),
      if_pos h]
  · rw [if_neg (show ¬ (o < 0x40) by omega), if_neg (show ¬ (o < 0x80) by omega),
      if_neg (show ¬ (0x100 ≤ o ∧ o < 0x200) by omega), if_neg (show ¬ (0x1000 ≤ o ∧ o < 0x1800) by omega),
      if_neg (show ¬ (0x1800 ≤ o ∧ o < 0x1C00) by omega), if_neg (show ¬ (0x2000 ≤ o ∧ o < 0x2400) by omega),
      if_neg (show ¬ (0x2400 ≤ o ∧ o < 0x2800) by omega), if_neg (show ¬ (0x3000 ≤ o ∧ o < 0x3800) by omega),
      if_pos h]
  · rw [if_neg (show ¬ (o < 0x40) by omega), if_neg (show ¬ (o < 0x80) by omega),
      if_neg (show ¬ (0x100 ≤ o ∧ o < 0x200) by omega), if_neg (show ¬ (0x1000 ≤ o ∧ o < 0x1800) by omega),
      if_neg (show ¬ (0x1800 ≤ o ∧ o < 0x1C00) by omega), if_neg (show ¬ (0x2000 ≤ o ∧ o < 0x2400) by omega),
      if_neg (show ¬ (0x2400 ≤ o ∧ o < 0x2800) by omega), if_neg (show ¬ (0x3000 ≤ o ∧ o < 0x3800) by omega),
      if_neg (show ¬ (0x3800 ≤ o ∧ o < 0x3A00) by omega), if_neg (show ¬ (0x4000 ≤ o ∧ o < 0x8000) by omega),
      if_pos h]
  · rw [if_neg (show ¬ (o < 0x40) by omega), if_neg (show ¬ (o < 0x80) by omega),
      if_neg (show ¬ (0x100 ≤ o ∧ o < 0x200) by omega), if_neg (show ¬ (0x1000 ≤ o ∧ o < 0x1800) by omega),
      if_neg (show ¬ (0x1800 ≤ o ∧ o < 0x1C00) by omega), if_neg (show ¬ (0x2000 ≤ o ∧ o < 0x2400) by omega),
      if_neg (show ¬ (0x2400 ≤ o ∧ o < 0x2800) by omega), if_neg (show ¬ (0x3000 ≤ o ∧ o < 0x3800) by omega),
      if_neg (show ¬ (0x3800 ≤ o ∧ o < 0x3A00) by omega), if_neg (show ¬ (0x4000 ≤ o ∧ o < 0x8000) by omega),
      if_neg (show ¬ (0x8000 ≤ o ∧ o < 0xA000) by omega), if_neg (show ¬ (0xA000 ≤ o ∧ o < 0xA040) by omega),
      if_pos h]
  · rw [if_neg (show ¬ (o < 0x40) by omega), if_neg (show ¬ (o < 0x80) by omega),
      if_neg (show ¬ (0x100 ≤ o ∧ o < 0x200) by omega), if_neg (show ¬ (0x1000 ≤ o ∧ o < 0x1800) by omega),
      if_neg (show ¬ (0x1800 ≤ o ∧ o < 0x1C00) by omega), if_neg (show ¬ (0x2000 ≤ o ∧ o < 0x2400) by omega),
      if_neg (show ¬ (0x2400 ≤ o ∧ o < 0x2800) by omega), if_neg (show ¬ (0x3000 ≤ o ∧ o < 0x3800) by omega),
      if_neg (show ¬ (0x3800 ≤ o ∧ o < 0x3A00) by omega), if_neg (show ¬ (0x4000 ≤ o ∧ o < 0x8000) by omega),
      if_neg (show ¬ (0x8000 ≤ o ∧ o < 0xA000) by omega), if_neg (show ¬ (0xA000 ≤ o ∧ o < 0xA040) by omega),
      if_neg (show ¬ (0xA040 ≤ o ∧ o < 0xA080) by omega), if_pos h]
  · rw [if_neg (show ¬ (o < 0x40) by omega), if_neg (show ¬ (o < 0x80) by omega),
      if_neg (show ¬ (0x100 ≤ o ∧ o < 0x200) by omega), if_neg (show ¬ (0x1000 ≤ o ∧ o < 0x1800) by omega),
      if_neg (show ¬ (0x1800 ≤ o ∧ o < 0x1C00) by omega), if_neg (show ¬ (0x2000 ≤ o ∧ o < 0x2400) by omega),
      if_neg (show ¬ (0x2400 ≤ o ∧ o < 0x2800) by omega), if_neg (show ¬ (0x3000 ≤ o ∧ o < 0x3800) by omega),
      if_neg (show ¬ (0x3800 ≤ o ∧ o < 0x3A00) by omega), if_neg (show ¬ (0x4000 ≤ o ∧ o < 0x8000) by omega),
      if_neg (show ¬ (0x8000 ≤ o ∧ o < 0xA000) by omega), if_neg (show ¬ (0xA000 ≤ o ∧ o < 0xA040) by omega),
      if_neg (show ¬ (0xA040 ≤ o ∧ o < 0xA080) by omega), if_neg (show ¬ (0x10000 ≤ o ∧ o < 0x18000) by omega),
      if_pos h]

/-- A status record lies in a part-owned region. -/
theorem statusOffset_partOwned (r : RecordId) (i : Nat) (h : i < statusSize r) :
    controlLine (r.statusOffset + i) = .partOwned ∧ r.statusOffset + i < Config.controlArea := by
  cases r <;> simp only [statusSize, RecordId.statusOffset, Config.offStatusHeader, Config.offWindowStatus,
    Config.offFilterStatus, Config.offSetStatus, Config.offPlateStatus, Config.offDirectoryResult,
    Config.controlArea] at h ⊢ <;>
    exact ⟨controlLine_partOwned _ (by omega), by omega⟩

/-- A group of the status header lies in it. -/
theorem groupOffset_partOwned (g : HeaderGroup) (i : Nat) (h : i < groupSize g) :
    controlLine (Config.offStatusHeader + g.offset + i) = .partOwned
      ∧ Config.offStatusHeader + g.offset + i < Config.controlArea := by
  cases g <;> simp only [groupSize, HeaderGroup.offset, Config.offStatusHeader, Config.controlArea] at h ⊢ <;>
    exact ⟨controlLine_partOwned _ (by omega), by omega⟩

/-- A mirror block lies in the directory mirror. -/
theorem mirrorOffset_partOwned (n : Fin 512) (b i : Nat) (hb : b < mirrorBlocks) (h : i < 64) :
    controlLine (mirrorOffset n b + i) = .partOwned ∧ mirrorOffset n b + i < Config.controlArea := by
  have hn := n.isLt
  simp only [mirrorOffset, mirrorBlocks, Config.offMirror, Config.controlArea] at hb ⊢
  exact ⟨controlLine_partOwned _ (by omega), by omega⟩

/-- A ring entry lies in the report ring. -/
theorem ringOffset_partOwned (number : Word) (i : Nat) (h : i < 64) :
    controlLine (ringOffset number + i) = .partOwned ∧ ringOffset number + i < Config.controlArea := by
  have : number.toNat % Config.ringEntries < 512 := Nat.mod_lt _ (by decide)
  simp only [ringOffset, Config.offReportRing, Config.controlArea]
  exact ⟨controlLine_partOwned _ (by omega), by omega⟩

end Sys2Proof.Machine
end

