-- ==== Sys2Proof/Laws/Evolves.lean ====
section
/-! SUPPORT. What the part's own work can do, said once: `Part.Keeps p q` holds where q comes of p by it. Each shared
operation has one lemma, named after it, that a proof cites in place of unfolding it. -/

namespace Sys2Proof.Machine

/-- What no own work changes, and the bounds that it keeps: the straps, the tick, every byte outside the part-owned
lines (R176), memory's form, the bounds of the report unit (R191, R194, R196), of the queues (R112) and of the orphan
queue (R40). -/
structure Part.Evolves (p q : Part) : Prop where
  cabase : q.cabase = p.cabase
  tkdiv : q.tkdiv = p.tkdiv
  tick : q.tick = p.tick
  owned : ∀ a, ¬ p.ownedAt a → q.mem.read a = p.mem.read a
  wf : Memory.wf p.mem → Memory.wf q.mem
  hold : p.holdBounded → q.holdBounded
  counts : p.reports.countsInRange → q.reports.countsInRange
  unread : p.reports.readBounded → q.reports.readBounded
  queues : p.queuesBounded → q.queuesBounded
  orphans : p.orphansBounded → q.orphansBounded

/-- The same, and no slot is opened: a slot in use was in use, for the same allocation of the same page version, and
was current if it is current. -/
structure Part.Keeps (p q : Part) : Prop extends Part.Evolves p q where
  slots : ∀ n : Fin 512, q.slots[n].inUse = true → p.slots[n].inUse = true ∧ q.slots[n].id = p.slots[n].id
    ∧ q.slots[n].version = p.slots[n].version ∧ q.slots[n].alloc = p.slots[n].alloc
    ∧ (q.slots[n].current = true → p.slots[n].current = true)

theorem Part.ownedAt_congr {p q : Part} (h : q.cabase = p.cabase) (a : Nat) : q.ownedAt a = p.ownedAt a := by
  unfold Part.ownedAt Part.base
  rw [h]

/-- The bound on unread records looks at three counts. -/
theorem ReportUnit.readBounded_congr {x y : ReportUnit} (written : y.written = x.written) (read : y.read = x.read)
    (recent : y.recent = x.recent) : x.readBounded → y.readBounded := by
  unfold ReportUnit.readBounded ReportUnit.unread
  rw [written, read, recent]
  exact id

/-- The ranges of the counters look at the lost count and the damage counters. -/
theorem ReportUnit.countsInRange_congr {x y : ReportUnit} (lost : y.lost = x.lost) (damage : y.damage = x.damage) :
    x.countsInRange → y.countsInRange := by
  unfold ReportUnit.countsInRange
  rw [lost, damage]
  exact id

namespace Part.Evolves

theorem refl (p : Part) : p.Evolves p :=
  ⟨rfl, rfl, rfl, fun _ _ => rfl, id, id, id, id, id, id⟩

theorem trans {p q r : Part} (h : p.Evolves q) (g : q.Evolves r) : p.Evolves r :=
  ⟨g.cabase.trans h.cabase, g.tkdiv.trans h.tkdiv, g.tick.trans h.tick,
    fun a ha => (g.owned a (by rwa [Part.ownedAt_congr h.cabase])).trans (h.owned a ha),
    g.wf ∘ h.wf, g.hold ∘ h.hold, g.counts ∘ h.counts, g.unread ∘ h.unread, g.queues ∘ h.queues,
    g.orphans ∘ h.orphans⟩

end Part.Evolves

namespace Part.Keeps

theorem refl (p : Part) : p.Keeps p :=
  ⟨Part.Evolves.refl p, fun _ h => ⟨h, rfl, rfl, rfl, id⟩⟩

theorem trans {p q r : Part} (h : p.Keeps q) (g : q.Keeps r) : p.Keeps r :=
  ⟨h.toEvolves.trans g.toEvolves, fun n hn =>
    have a := g.slots n hn
    have b := h.slots n a.1
    ⟨b.1, a.2.1.trans b.2.1, a.2.2.1.trans b.2.2.1, a.2.2.2.1.trans b.2.2.2.1, fun hc => b.2.2.2.2 (a.2.2.2.2 hc)⟩⟩

/-- Work on the tables that the relation does not look at. -/
theorem tables {p q : Part} (r : Part) (h : p.Keeps q) (cabase : r.cabase = q.cabase := by rfl)
    (tkdiv : r.tkdiv = q.tkdiv := by rfl) (tick : r.tick = q.tick := by rfl) (mem : r.mem = q.mem := by rfl)
    (reports : r.reports = q.reports := by rfl) (channels : r.channels = q.channels := by rfl)
    (orphans : r.orphans = q.orphans := by rfl) (slots : r.slots = q.slots := by rfl) : p.Keeps r :=
  h.trans
    ⟨⟨cabase, tkdiv, tick, fun _ _ => by rw [mem], fun x => by rwa [mem],
        fun x => by unfold Part.holdBounded; rwa [reports], fun x => by rwa [reports], fun x => by rwa [reports],
        fun x => by unfold Part.queuesBounded; rwa [channels], fun x => by unfold Part.orphansBounded; rwa [orphans]⟩,
      fun n hn => by rw [slots] at hn ⊢; exact ⟨hn, rfl, rfl, rfl, id⟩⟩

/-- A fold of acts. -/
theorem foldl {p q : Part} {β : Type} (h : p.Keeps q) (act : Part → β → Part)
    (hact : ∀ (a : Part) (b : β), a.Keeps (act a b)) (bs : List β) : p.Keeps (bs.foldl act q) :=
  h.trans (foldl_keeps (fun a => q.Keeps a) act (fun a b ha => ha.trans (hact a b)) bs q (refl q))

/-- An act for each number. -/
theorem forEach {p q : Part} {n : Nat} (h : p.Keeps q) (act : Part → Fin n → Part)
    (hact : ∀ (a : Part) (k : Fin n), a.Keeps (act a k)) : p.Keeps (forEach n act q) :=
  h.foldl act hact (List.finRange n)

/-! ## The writers of the tables -/

section tables
variable {p q : Part} (h : p.Keeps q)
include h

theorem setPlate {n : Fin 64} {x : Plate} : p.Keeps (q.setPlate n x) := h.tables _
theorem setSet {n : Fin 8} {x : ScreenSet} : p.Keeps (q.setSet n x) := h.tables _
theorem setWindow {n : Fin 16} {x : Window} : p.Keeps (q.setWindow n x) := h.tables _
theorem setFilter {n : Fin 16} {x : FilterEntry} : p.Keeps (q.setFilter n x) := h.tables _
theorem setParser {k : Fin 4} {x : Parser} : p.Keeps (q.setParser k x) := h.tables _
theorem setUnit {i : Fin 106} {x : CmdUnit} : p.Keeps (q.setUnit i x) := h.tables _
theorem setRecord {r : RecordId} {x : CmdUnit} : p.Keeps (q.setRecord r x) := h.tables _
theorem setTransit {x : List Parcel} : p.Keeps (q.setTransit x) := h.tables _
theorem setOwners {x : Vector (Option (Fin 8)) 8} : p.Keeps (q.setOwners x) := h.tables _
theorem setParams {x : Params} : p.Keeps (q.setParams x) := h.tables _
theorem setSweep {x : Sweep} : p.Keeps (q.setSweep x) := h.tables _
theorem ownRead : p.Keeps q.ownRead := h.tables _

/-- The report unit replaced by one within the same bounds. -/
theorem setReports {x : ReportUnit} (hold : x.hold.length ≤ q.reports.hold.length ∨ x.hold.length ≤ Config.holdRoom)
    (counts : q.reports.countsInRange → x.countsInRange) (unread : q.reports.readBounded → x.readBounded) :
    p.Keeps (q.setReports x) :=
  h.trans
    ⟨⟨rfl, rfl, rfl, fun _ _ => rfl, id,
        fun y => hold.elim (fun z => Nat.le_trans z y) id, counts, unread, id, id⟩,
      fun _ hn => ⟨hn, rfl, rfl, rfl, id⟩⟩

/-- The orphan queue replaced by one within the same bounds. -/
theorem setOrphans {x : List Orphan} (bound : q.orphansBounded → (q.setOrphans x).orphansBounded) :
    p.Keeps (q.setOrphans x) :=
  h.trans ⟨⟨rfl, rfl, rfl, fun _ _ => rfl, id, id, id, id, id, bound⟩, fun _ hn => ⟨hn, rfl, rfl, rfl, id⟩⟩

/-- A channel replaced by one whose queue is bounded where the old one's is. -/
theorem setChannel {k : Fin 2} {c : Channel}
    (queue : q.channels[k].queue.length ≤ Config.queueRoom → c.queue.length ≤ Config.queueRoom) :
    p.Keeps (q.setChannel k c) :=
  h.trans
    ⟨⟨rfl, rfl, rfl, fun _ _ => rfl, id, id, id, id,
        fun y m => by
          by_cases e : m = k
          · subst e
            rw [Part.setChannel_get]
            exact queue (y m)
          · rw [Part.setChannel_get_ne q k c m e]
            exact y m, id⟩,
      fun _ hn => ⟨hn, rfl, rfl, rfl, id⟩⟩

/-- A slot replaced by one that is in use, and current, only where the old one is, for the same page version. -/
theorem setSlot {n : Fin 512} {x : Slot} (alloc : x.alloc = q.slots[n].alloc)
    (same : x.inUse = true → q.slots[n].inUse = true ∧ x.id = q.slots[n].id ∧ x.version = q.slots[n].version)
    (current : x.current = true → q.slots[n].current = true) : p.Keeps (q.setSlot n x) :=
  h.trans
    ⟨⟨rfl, rfl, rfl, fun _ _ => rfl, id, id, id, id, id, id⟩,
      fun m hm => by
        by_cases e : m = n
        · subst e
          rw [Part.setSlot_get] at hm ⊢
          exact ⟨(same hm).1, (same hm).2.1, (same hm).2.2, alloc, current⟩
        · rw [Part.setSlot_get_ne q n x m e] at hm ⊢
          exact ⟨hm, rfl, rfl, rfl, id⟩⟩

/-- An own write to part-owned lines. -/
theorem own {w : OwnWrite} {off : Nat} {bs : List Byte}
    (line : ∀ i, i < bs.length → controlLine (off + i) = .partOwned ∧ off + i < Config.controlArea) :
    p.Keeps (q.own w off bs) :=
  h.trans
    ⟨⟨rfl, rfl, rfl,
        fun a ha => by
          rw [Part.own_mem]
          refine Memory.read_writeBytes_of_outside _ _ _ _ ?_
          by_contra hc
          have hlo : q.base + off ≤ a := by omega
          have hhi : a - q.base - off < bs.length := by omega
          have hl := line _ hhi
          rw [show off + (a - q.base - off) = a - q.base by omega] at hl
          exact ha ⟨by omega, by omega, hl.1⟩,
        fun x => Memory.wf_writeBytes _ _ _ x, id, id, id, id, id⟩,
      fun _ hn => ⟨hn, rfl, rfl, rfl, id⟩⟩

/-! ## Reports (chapter 10) -/

theorem headerWrite {g : HeaderGroup} : p.Keeps (q.headerWrite g) :=
  h.own fun i hi => groupOffset_partOwned g i (by rwa [Part.groupBytes_length] at hi)

theorem statusWrite {r : RecordId} : p.Keeps (q.statusWrite r) := by
  have line : ∀ i, i < (q.statusBytes r).length →
      controlLine (r.statusOffset + i) = .partOwned ∧ r.statusOffset + i < Config.controlArea :=
    fun i hi => statusOffset_partOwned r i (by rwa [Part.statusBytes_length] at hi)
  unfold Part.statusWrite
  split
  · exact h.own line
  · exact h.own line

theorem finish {r : RecordId} {c : ResultCode} {d : Nat} : p.Keeps (q.finish r c d) := by
  unfold Part.finish
  dsimp only
  split
  · exact h.setRecord.headerWrite
  · refine h.setRecord.own fun i hi => statusOffset_partOwned _ i ?_
    rw [List.length_take, Part.statusBytes_length] at hi
    exact Nat.lt_of_lt_of_le hi (Nat.min_le_right _ _)

theorem finishFree {r : RecordId} {c : ResultCode} : p.Keeps (q.finishFree r c) := by
  unfold Part.finishFree
  exact (h.tables { q with freeReads := q.freeReads + 1 }).finish

theorem lose : p.Keeps q.lose := by
  unfold Part.lose
  dsimp only
  apply Part.Keeps.headerWrite
  apply Part.Keeps.setReports h
  · exact Or.inl (Nat.le_refl _)
  · refine fun c => ⟨?_, c.2⟩
    show satInc Config.max16 q.reports.lost ≤ Config.max16
    have := c.1
    unfold satInc
    split <;> omega
  · exact ReportUnit.readBounded_congr rfl rfl rfl

theorem writeReport {r : Report} (room : q.reports.unread < Config.ringEntries) : p.Keeps (q.writeReport r) := by
  unfold Part.writeReport
  dsimp only
  refine Part.Keeps.headerWrite ?_
  apply Part.Keeps.setReports (h.own fun i hi => ringOffset_partOwned _ i (by rwa [Report.bytes_length] at hi))
  · exact Or.inl (Nat.le_refl _)
  · exact ReportUnit.countsInRange_congr rfl rfl
  intro b
  have b1 : q.reports.unread ≤ q.reports.recent := b.1
  have b2 : q.reports.recent ≤ Config.ringEntries := b.2
  have hu : (q.reports.written + 1 - q.reports.read).toNat = q.reports.unread + 1 := by
    unfold ReportUnit.unread at room ⊢
    simp only [Config.ringEntries] at room
    bv_omega
  constructor
  · show (q.reports.written + 1 - q.reports.read).toNat ≤ satInc Config.ringEntries q.reports.recent
    rw [hu]
    unfold satInc
    split <;> omega
  · show satInc Config.ringEntries q.reports.recent ≤ Config.ringEntries
    unfold satInc
    split <;> omega

theorem takeReport {r : Report} : p.Keeps (q.takeReport r) := by
  unfold Part.takeReport
  split
  · exact h
  · split
    · split
      · rename_i hr
        apply Part.Keeps.setReports h
        rotate_left
        · exact ReportUnit.countsInRange_congr rfl rfl
        · exact ReportUnit.readBounded_congr rfl rfl rfl
        refine Or.inr ?_
        simp only [List.length_append, List.length_singleton]
        omega
      · exact h.lose
    · split
      · exact h.lose
      · rename_i hr
        exact h.writeReport (by omega)

theorem raise {k : ReportKind} {x : Subject} : p.Keeps (q.raise k x) := h.takeReport

theorem writeLost (room : q.reports.unread < Config.ringEntries) : p.Keeps q.writeLost := by
  unfold Part.writeLost
  dsimp only
  apply Part.Keeps.headerWrite
  apply Part.Keeps.setReports (h.writeReport room)
  · exact Or.inl (Nat.le_refl _)
  · exact fun c => ⟨Nat.zero_le _, c.2⟩
  · exact ReportUnit.readBounded_congr rfl rfl rfl

theorem takeReadCount {v : Word} : p.Keeps (q.takeReadCount v) := by
  have h' : p.Keeps ((q.setReports { q.reports with read := q.reports.readCount v }).headerWrite .counts) := by
    apply Part.Keeps.headerWrite
    apply Part.Keeps.setReports h
    · exact Or.inl (Nat.le_refl _)
    · exact ReportUnit.countsInRange_congr rfl rfl
    intro b
    have b1 : q.reports.unread ≤ q.reports.recent := b.1
    have b2 : q.reports.recent ≤ Config.ringEntries := b.2
    refine ⟨?_, b.2⟩
    show (q.reports.written - q.reports.readCount v).toNat ≤ q.reports.recent
    simp only [Config.ringEntries] at b2
    unfold ReportUnit.readCount
    split
    · simp
    · split
      · have : q.reports.recent < 2 ^ 32 := by omega
        bv_omega
      · omega
  unfold Part.takeReadCount
  dsimp only
  split
  · rename_i hc
    exact h'.writeLost hc.2.1
  · exact h'

theorem raiseStarted {c : StartCause} : p.Keeps (q.raiseStarted c) := by
  unfold Part.raiseStarted
  dsimp only
  exact Part.Keeps.foldl
    (Part.Keeps.raise (h.setReports (x := { q.reports with hold := [] }) (Or.inr (Nat.zero_le Config.holdRoom))
      (ReportUnit.countsInRange_congr rfl rfl) (ReportUnit.readBounded_congr rfl rfl rfl)))
    _ (fun a _ => (refl a).takeReport) _

theorem postHeader : p.Keeps q.postHeader := by
  unfold Part.postHeader
  split
  · exact h
  · exact h.trans ⟨⟨rfl, rfl, rfl, fun _ _ => rfl, id, id, id, id, id, id⟩, fun _ hn => ⟨hn, rfl, rfl, rfl, id⟩⟩

end tables

end Part.Keeps

end Sys2Proof.Machine
end

