-- ==== Sys2Proof/Laws/Exposure.lean ====
section
/-! SUPPORT. A block in hand at a CANCEL of its plate is composed as it would have been without the CANCEL (R135,
R138). -/

namespace Sys2Proof.Machine

/-- A snapshot looks at the directory's slots only. -/
theorem Part.snapshot_congr {p q : Part} (slots : q.slots = p.slots) (cursors : List Cursor) (h : InHand) :
    q.snapshot cursors h = p.snapshot cursors h := by
  unfold Part.snapshot Part.snapshotOf Part.entryAt Part.allocated
  rw [slots]

/-- What a block that holds the snapshot of a CANCEL is composed from: that snapshot, the cursors and its set. -/
theorem Part.compose_congr {p q : Part} {k : Fin 2} {h : InHand} (t : TileMemory) (live : h.live = false)
    (stage : h.stage = .composition)
    (cursors : q.channels[k].cursors = p.channels[k].cursors)
    (set : q.sets[h.copy.screenSet] = p.sets[h.copy.screenSet]) : q.compose k h t = p.compose k h t := by
  unfold Part.compose Part.beginComposition
  simp only [live, stage, cursors, set, Bool.false_eq_true, if_false]

/-- A prepared block that a CANCEL leaves is composed as the block before it. -/
theorem Part.compose_cancelledBlock (p : Part) (k : Fin 2) (h : InHand) (t : TileMemory) (live : h.live = true)
    (prepared : h.prepared = true) : p.compose k (p.cancelledBlock k h) t = p.compose k h t := by
  unfold Part.compose Part.beginComposition Part.cancelledBlock
  simp only [live, prepared, if_true]
  rfl

/-- A block takes the snapshot of the moment its composition begins: a live one, and one that a CANCEL found in
preparation, none of whose slots has been freed since (R66, R138). -/
theorem Part.beginComposition_snapshot (p : Part) (k : Fin 2) (h : InHand)
    (now : h.live = true ∨ (h.stage = .preparation
      ∧ ∀ s ∈ p.snapshot p.channels[k].cursors h, p.allocated s.ref = true)) :
    (p.beginComposition k h).snapshot = p.snapshot p.channels[k].cursors h := by
  unfold Part.beginComposition
  rcases now with live | ⟨stage, slots⟩
  · simp only [live, if_true]
  · simp only [stage]
    split
    · rfl
    · exact (List.map_congr_left fun s hs => by simp only [Part.heldOr, slots s hs, if_true, id]).trans (List.map_id _)

end Sys2Proof.Machine
end

