-- ==== Sys2Proof/Laws/KeepsDirectory.lean ====
section
/-! SUPPORT. `Part.Keeps` for the operations of the page directory, plate control and filing. -/

namespace Sys2Proof.Machine

/-- Sublists and replaced entries keep the bounds of the orphan queue. -/
theorem Part.orphansBounded_sublist {q : Part} {x : List Orphan} (s : x.Sublist q.orphans) (b : q.orphansBounded) :
    (q.setOrphans x).orphansBounded :=
  ⟨Nat.le_trans s.length_le b.1, List.Pairwise.sublist s b.2⟩

/-- A replacement that leaves every key keeps the bounds of the orphan queue. -/
theorem Part.orphansBounded_map {q : Part} (f : Orphan → Orphan)
    (key : ∀ o ∈ q.orphans, (f o).id = o.id ∧ (f o).version = o.version ∧ (f o).kind = o.kind ∧ (f o).index = o.index)
    (b : q.orphansBounded) : (q.setOrphans (q.orphans.map f)).orphansBounded := by
  refine ⟨by simpa using b.1, ?_⟩
  show (q.orphans.map f).Pairwise _
  rw [List.pairwise_map]
  refine List.Pairwise.imp_of_mem ?_ b.2
  intro x y hx hy h
  have kx := key x hx
  have ky := key y hy
  unfold Orphan.sameKey at h ⊢
  rw [kx.1, kx.2.1, kx.2.2.1, kx.2.2.2, ky.1, ky.2.1, ky.2.2.1, ky.2.2.2]
  exact h

namespace Part.Keeps

/-- Either of two outcomes. -/
theorem ite {p a b : Part} {c : Prop} [Decidable c] (ha : p.Keeps a) (hb : p.Keeps b) :
    p.Keeps (if c then a else b) := by
  split
  · exact ha
  · exact hb

variable {p q : Part} (h : p.Keeps q)
include h

/-! ## The directory's tables -/

theorem mirrorBlock {n : Fin 512} {record : List Byte} {b : Nat} (hb : b < mirrorBlocks) :
    p.Keeps (q.mirrorBlock n record b) :=
  h.own fun i hi => mirrorOffset_partOwned n b i hb (Nat.lt_of_lt_of_le hi (fieldBytes_length_le _ _ _))

omit h in
theorem mirrorBlocks_foldl {n : Fin 512} {record : List Byte} :
    ∀ (bs : List Nat), (∀ b ∈ bs, b < mirrorBlocks) → ∀ {q : Part}, p.Keeps q →
      p.Keeps (bs.foldl (fun p b => p.mirrorBlock n record b) q)
  | [], _, _, hq => hq
  | b :: bs, hb, _, hq =>
    mirrorBlocks_foldl bs (fun x hx => hb x (List.mem_cons_of_mem b hx)) (hq.mirrorBlock (hb b List.mem_cons_self))

/-- A mirror write whose body blocks lie between the first and the last. -/
theorem mirrorWrite {n : Fin 512} {record : List Byte} {body : List Nat} (hb : ∀ b ∈ body, b ∈ bodyBlocks) :
    p.Keeps (q.mirrorWrite n record body) := by
  refine Part.Keeps.mirrorBlock (mirrorBlocks_foldl _ (fun b x => ?_) (h.mirrorBlock (by decide))) (by decide)
  have := (List.mem_range'_1.mp (hb b x)).2
  simp only [mirrorBlocks] at this ⊢
  omega

/-- A change of a slot that leaves its allocation and opens nothing. -/
theorem changeSlot {n : Fin 512} {f : Slot → Slot} (alloc : (f q.slots[n]).alloc = q.slots[n].alloc)
    (same : (f q.slots[n]).inUse = true → q.slots[n].inUse = true ∧ (f q.slots[n]).id = q.slots[n].id
      ∧ (f q.slots[n]).version = q.slots[n].version)
    (current : (f q.slots[n]).current = true → q.slots[n].current = true) : p.Keeps (q.changeSlot n f) := by
  unfold Part.changeSlot
  dsimp only
  refine Part.Keeps.mirrorWrite ?_ fun _ x => List.mem_of_mem_filter x
  exact h.setSlot alloc same current

/-- A change of a slot that leaves its state, its page version and its allocation. -/
theorem changeSlot_same {n : Fin 512} {f : Slot → Slot} (alloc : (f q.slots[n]).alloc = q.slots[n].alloc)
    (state : (f q.slots[n]).state = q.slots[n].state) (id_ : (f q.slots[n]).id = q.slots[n].id)
    (version : (f q.slots[n]).version = q.slots[n].version) : p.Keeps (q.changeSlot n f) := by
  refine h.changeSlot alloc (fun x => ⟨?_, id_, version⟩) (fun x => ?_)
  · unfold Slot.inUse at x ⊢
    rwa [state] at x
  · unfold Slot.current at x ⊢
    rwa [state] at x

/-- A change of a current slot that leaves its page version and its allocation. -/
theorem changeSlot_current {n : Fin 512} {f : Slot → Slot} (cur : q.slots[n].current = true)
    (alloc : (f q.slots[n]).alloc = q.slots[n].alloc) (id_ : (f q.slots[n]).id = q.slots[n].id)
    (version : (f q.slots[n]).version = q.slots[n].version) : p.Keeps (q.changeSlot n f) := by
  refine h.changeSlot alloc (fun _ => ⟨?_, id_, version⟩) (fun _ => cur)
  unfold Slot.current at cur
  unfold Slot.inUse
  split at cur <;> simp_all

theorem orphanDropped {o : Orphan} {c : DropCause} {t : Option Trample} : p.Keeps (q.orphanDropped o c t) := h.raise

theorem dropOrphans {test : Orphan → Bool} {c : DropCause} : p.Keeps (q.dropOrphans test c) := by
  unfold Part.dropOrphans
  dsimp only
  exact Part.Keeps.foldl (h.setOrphans (Part.orphansBounded_sublist List.filter_sublist)) _
    (fun a _ => (refl a).orphanDropped) _

theorem freeSlot {n : Fin 512} : p.Keeps (q.freeSlot n) := by
  unfold Part.freeSlot
  dsimp only
  refine Part.Keeps.raise (Part.Keeps.changeSlot h.dropOrphans rfl (fun x => ?_) (fun x => ?_))
  · exact absurd x (by simp [Slot.inUse, Slot.freed])
  · exact absurd x (by simp [Slot.current, Slot.freed])

theorem takePin {n : Fin 512} : p.Keeps (q.takePin n) := h.changeSlot_same rfl rfl rfl rfl

theorem releasePin {n : Fin 512} : p.Keeps (q.releasePin n) := by
  have h' : p.Keeps (q.changeSlot n fun s => { s with pins := s.pins - 1 }) := h.changeSlot_same rfl rfl rfl rfl
  unfold Part.releasePin
  dsimp only
  split
  · exact h'.freeSlot
  · exact h'

theorem countDamage {k : Nat} : p.Keeps (q.countDamage k) := by
  unfold Part.countDamage
  dsimp only
  split
  · rename_i hd
    apply Part.Keeps.headerWrite
    apply Part.Keeps.setReports h
    · exact Or.inl (Nat.le_refl _)
    · refine fun c => ⟨c.1, fun j => ?_⟩
      show (q.reports.damage.set (sepIndex k).val _ (sepIndex k).isLt)[j] ≤ _
      by_cases e : (sepIndex k).val = j.val
      · simp only [Fin.getElem_fin, Vector.getElem_set, e, if_true]
        simp only [Fin.getElem_fin, e] at hd
        omega
      · simp only [Fin.getElem_fin, Vector.getElem_set, e, if_false]
        exact c.2 j
    · exact ReportUnit.readBounded_congr rfl rfl rfl
  · exact h

theorem damaged {n : Fin 512} {ref : EntryRef} {d : DamageInfo} : p.Keeps (q.damaged n ref d) := by
  unfold Part.damaged
  exact ite h.countDamage.raise.raise h.countDamage.raise

/-! ## Plate control -/

theorem plateStatus {n : Fin 64} : p.Keeps (q.plateStatus n) := h.statusWrite

theorem changePlate {n : Fin 64} {f : Plate → Plate} : p.Keeps (q.changePlate n f) := h.setPlate

theorem changeChannel {k : Fin 2} {f : Channel → Channel}
    (queue : q.channels[k].queue.length ≤ Config.queueRoom → (f q.channels[k]).queue.length ≤ Config.queueRoom) :
    p.Keeps (q.changeChannel k f) := by
  unfold Part.changeChannel
  dsimp only
  split
  · exact (h.setChannel queue).headerWrite
  · exact h.setChannel queue

omit h in
theorem follow_queue (c : Channel) : c.follow.queue = c.queue := by
  unfold Channel.follow
  split <;> rfl

theorem setLists {k : Fin 2} {ready queue : List (Fin 64)}
    (bound : q.channels[k].queue.length ≤ Config.queueRoom → queue.length ≤ Config.queueRoom) :
    p.Keeps (q.setLists k ready queue) := by
  unfold Part.setLists
  dsimp only
  refine Part.Keeps.foldl (h.changeChannel fun b => ?_) _ (fun a _ => (refl a).plateStatus) _
  rw [follow_queue]
  exact bound b

theorem leaveLists {n : Fin 64} : p.Keeps (q.leaveLists n) :=
  h.setLists fun b => Nat.le_trans (List.length_filter_le _ _) b

theorem changeUse {s : Fin 8} {f : Nat → Nat} : p.Keeps (q.changeUse s f) := h.setSet.statusWrite

theorem dropUse {n : Fin 64} : p.Keeps (q.dropUse n) := h.changeUse

theorem resolveTo {n : Fin 64} {k : Fin 4} {x : Placement} {slot : Fin 512} : p.Keeps (q.resolveTo n k x slot).1 := by
  unfold Part.resolveTo
  dsimp only
  split
  · exact h.changePlate.takePin
  · dsimp only
    exact h.changePlate

theorem resolveNow {n : Fin 64} {k : Fin 4} {x : Placement} {slot : Fin 512} : p.Keeps (q.resolveNow n k x slot) := by
  have h' := h.resolveTo (n := n) (k := k) (x := x) (slot := slot)
  unfold Part.resolveNow
  split <;> rename_i e <;> rw [e] at h'
  · exact h'.plateStatus
  · exact h'.plateStatus.raise

theorem unpin {n : Fin 64} {k : Fin 4} : p.Keeps (q.unpin n k) := by
  unfold Part.unpin
  dsimp only
  split
  · exact h.changePlate.releasePin
  · exact h

theorem unpinAll {n : Fin 64} : p.Keeps (q.unpinAll n) := h.forEach _ fun a _ => (refl a).unpin

theorem becomeReady {n : Fin 64} {forced : Bool} : p.Keeps (q.becomeReady n forced) := by
  unfold Part.becomeReady
  dsimp only
  exact Part.Keeps.setLists h.changePlate id

theorem failState {n : Fin 64} {c : FailureCause} : p.Keeps (q.failState n c) := h.changePlate.leaveLists.unpinAll

theorem failReport {n : Fin 64} {c : FailureCause} {tail : List Byte} : p.Keeps (q.failReport n c tail) := h.raise

theorem failPlate {n : Fin 64} {c : FailureCause} {tail : List Byte} : p.Keeps (q.failPlate n c tail) :=
  h.failState.plateStatus.failReport

theorem deadlineAction {n : Fin 64} : p.Keeps (q.deadlineAction n) := by
  unfold Part.deadlineAction
  split
  · exact h.failPlate
  · exact h.becomeReady

theorem enterWaiting {n : Fin 64} : p.Keeps (q.enterWaiting n) := by
  unfold Part.enterWaiting
  split
  · exact h.becomeReady
  · split
    · exact h.deadlineAction
    · exact h

theorem backToWaiting {n : Fin 64} {f : Plate → Plate} : p.Keeps (q.backToWaiting n f) := by
  unfold Part.backToWaiting
  dsimp only
  split
  · exact h.changePlate.leaveLists.dropUse
  · exact h.changePlate.leaveLists

/-- An admission where the queue has room. -/
theorem admitHead {k : Fin 2} (room : q.channels[k].queue.length < Config.queueRoom) : p.Keeps (q.admitHead k) := by
  unfold Part.admitHead
  split
  · exact h
  rename_i m rest _
  refine ite ?_ h.failPlate
  extract_lets p1 p2 p3
  have h2 : p.Keeps p2 := Part.Keeps.changePlate (Part.Keeps.changeUse h)
  have e : p2.channels = q.channels := by
    show (Part.setPlate p1 _ _).channels = _
    show (Part.statusWrite _ _).channels = _
    rw [Part.statusWrite_channels, Part.setSet_channels]
  have h3 : p.Keeps p3 := h2.setLists fun _ => by
    rw [List.length_append, List.length_singleton, e]
    omega
  exact h3.raise

omit h in
theorem admissions {k : Fin 2} : ∀ (n : Nat) {q : Part}, p.Keeps q → p.Keeps (q.admissions k n)
  | 0, _, hq => hq
  | n + 1, q, hq => by
    unfold Part.admissions
    split
    · rename_i room
      exact admissions n (hq.admitHead room)
    · exact hq

theorem feed {k : Fin 2} : p.Keeps (q.feed k) := admissions _ h

theorem feedAll : p.Keeps q.feedAll := h.feed.feed

theorem tellWhole {slot : Fin 512} : p.Keeps (q.tellWhole slot) := by
  refine Part.Keeps.feedAll (h.forEach _ fun a k => ?_)
  split
  · exact (refl a).becomeReady
  · exact refl a

theorem holdPlate {n : Fin 64} {k : Fin 4} {slot : Fin 512} {ref : EntryRef} :
    p.Keeps (q.holdPlate n k slot ref) := by
  unfold Part.holdPlate
  dsimp only
  exact h.backToWaiting.raise.enterWaiting

theorem tellNotWhole {slot : Fin 512} {ref : EntryRef} : p.Keeps (q.tellNotWhole slot ref) := by
  refine Part.Keeps.feedAll (h.forEach _ fun a k => ?_)
  split
  · exact refl a
  · split
    · exact (refl a).holdPlate
    · exact refl a

theorem repin {n : Fin 64} {k : Fin 4} {x : Placement} {slot : Fin 512} : p.Keeps (q.repin n k x slot) := by
  unfold Part.repin
  dsimp only
  exact h.resolveNow.releasePin.changePlate.plateStatus

theorem repinPlate {n : Fin 64} {taken : List (Fin 4 × Placement)} {slot : Fin 512} :
    p.Keeps (q.repinPlate n taken slot) := by
  have h' := Part.Keeps.foldl h (fun p x => p.repin n x.1 x.2 slot) (fun a _ => (refl a).repin) taken
  unfold Part.repinPlate
  dsimp only
  split
  · exact h'.raise.backToWaiting.enterWaiting
  · exact h'.raise

theorem remakeReports {n : Fin 64} {followers : List (Fin 4 × Placement)} {slot : Fin 512} :
    p.Keeps (q.remakeReports n followers slot) :=
  h.foldl _ (fun a _ => (refl a).raise) _

omit h in
theorem followNewest {x : Part × List (Fin 64 × Fin 4)} (h : p.Keeps x.1) {n : Fin 64} {slot : Fin 512} :
    p.Keeps (Part.followNewest x n slot).1 := by
  unfold Part.followNewest
  dsimp only
  split
  · exact h.remakeReports
  · split
    · exact h.repinPlate
    · exact h

theorem resolveWaiting {n : Fin 64} {taken : List (Fin 64 × Fin 4)} {slot : Fin 512} :
    p.Keeps (q.resolveWaiting n taken slot) := by
  unfold Part.resolveWaiting
  dsimp only
  split
  · have h' := Part.Keeps.foldl h (fun (p : Part) (x : Fin 4 × Placement) => p.resolveNow n x.1 x.2 slot)
      (fun a _ => (refl a).resolveNow)
      (q.plates[n].copy.numberedPlacements.filter (q.affected n taken slot))
    split
    · exact h'.becomeReady
    · exact h'
  · exact h

theorem tellCurrent {slot : Fin 512} : p.Keeps (q.tellCurrent slot) := by
  have h' : p.Keeps (Machine.forEach 64 (fun x n => Part.followNewest x n slot) (q, [])).1 :=
    forEach_keeps (fun x : Part × List (Fin 64 × Fin 4) => p.Keeps x.1) _ (fun _ _ hx => followNewest hx) _ h
  unfold Part.tellCurrent
  dsimp only
  exact Part.Keeps.feedAll (h'.forEach _ fun a k => (refl a).resolveWaiting)

end Part.Keeps

end Sys2Proof.Machine
end

