-- ==== Sys2Proof/Laws/KeepsFiling.lean ====
section
/-! SUPPORT. `Part.Keeps` for the filing of parcels, adoption and the trample monitor; `Part.Evolves` for the one act
that opens a slot. -/

namespace Sys2Proof.Machine

/-- A replaced entry leaves every other field. -/
theorem Slot.setEntry_same (s : Slot) (ref : EntryRef) (e : Entry) :
    (s.setEntry ref e).alloc = s.alloc ∧ (s.setEntry ref e).state = s.state ∧ (s.setEntry ref e).id = s.id
      ∧ (s.setEntry ref e).version = s.version := by
  cases ref <;> exact ⟨rfl, rfl, rfl, rfl⟩

theorem Slot.current_of_state {s : Slot} (h : s.state = .filling ∨ s.state = .stalled ∨ s.state = .complete) :
    s.current = true := by
  unfold Slot.current
  rcases h with h | h | h <;> rw [h]

theorem Slot.inUse_of_current {s : Slot} (h : s.current = true) : s.inUse = true := by
  unfold Slot.current at h
  unfold Slot.inUse
  split at h <;> simp_all

theorem Slot.superseded_of {s : Slot} (use : s.inUse = true) (h : ¬ s.current = true) : s.state = .superseded := by
  unfold Slot.inUse at use
  unfold Slot.current at h
  split at h <;> simp_all

theorem Part.ite_slots {a b p : Part} {c : Prop} [Decidable c] (ha : a.slots = p.slots) (hb : b.slots = p.slots) :
    (if c then a else b).slots = p.slots := by
  split
  · exact ha
  · exact hb

/-- The damage of an entry leaves the slots. -/
theorem Part.damaged_slots (p : Part) (n : Fin 512) (ref : EntryRef) (d : DamageInfo) :
    (p.damaged n ref d).slots = p.slots := by
  unfold Part.damaged
  refine Part.ite_slots ?_ ?_
  · rw [Part.raise_slots, Part.raise_slots, Part.countDamage_slots]
  · rw [Part.raise_slots, Part.countDamage_slots]

/-- The candidate does not stand in the queue yet. -/
theorem Part.orphansBounded_append {q : Part} {x : List Orphan} {o : Orphan} (s : x.Sublist q.orphans)
    (room : x.length < Config.orphanRoom) (new : ∀ y ∈ x, y.sameKey o = false) (b : q.orphansBounded) :
    (q.setOrphans (x ++ [o])).orphansBounded := by
  refine ⟨?_, ?_⟩
  · show (x ++ [o]).length ≤ _
    rw [List.length_append, List.length_singleton]
    exact room
  · show (x ++ [o]).Pairwise _
    rw [List.pairwise_append]
    refine ⟨List.Pairwise.sublist s b.2, List.pairwise_singleton _ _, fun y hy z hz => ?_⟩
    rw [List.mem_singleton] at hz
    rw [hz]
    exact new y hy

theorem Orphan.sameKey_symm (o x : Orphan) : o.sameKey x = x.sameKey o := by
  unfold Orphan.sameKey
  rw [Bool.eq_iff_iff]
  simp only [Bool.and_eq_true, beq_iff_eq]
  constructor <;> rintro ⟨⟨⟨a, b⟩, c⟩, d⟩ <;> exact ⟨⟨⟨a.symm, b.symm⟩, c.symm⟩, d.symm⟩

theorem Orphan.sameKey_iff (o x : Orphan) :
    o.sameKey x = true ↔ o.id = x.id ∧ o.version = x.version ∧ o.kind = x.kind ∧ o.index = x.index := by
  unfold Orphan.sameKey
  simp only [Bool.and_eq_true, beq_iff_eq, and_assoc]

namespace Part.Keeps

variable {p q : Part} (h : p.Keeps q)
include h

/-! ## Copies -/

theorem setEntry {n : Fin 512} {ref : EntryRef} {e : Slot → Entry} :
    p.Keeps (q.changeSlot n fun s => s.setEntry ref (e s)) :=
  have x := Slot.setEntry_same q.slots[n] ref (e q.slots[n])
  h.changeSlot_same x.1 x.2.1 x.2.2.1 x.2.2.2

theorem applyCopy {n : Fin 512} {ref : EntryRef} {c : Copy} : p.Keeps (q.applyCopy n ref c) := by
  have h1 : p.Keeps (q.changeSlot n fun s => s.setEntry ref c.entry) := h.setEntry (e := fun _ => c.entry)
  unfold Part.applyCopy
  extract_lets old
  split
  · exact h
  · split
    · exact h1
    · exact h1.damaged
  · split
    · exact h.setEntry (e := fun _ => { old with repeats := satInc 255 old.repeats })
    · exact h1.raise

theorem slotFollows {n : Fin 512} {w : Bool} : p.Keeps (q.slotFollows n w) := by
  unfold Part.slotFollows
  extract_lets s
  split
  · exact h
  · exact h
  · exact ite h.tellWhole h
  · rename_i hf hc hs
    have cur : q.slots[n].current = true := by
      apply Slot.current_of_state
      cases e : q.slots[n].state
      · exact absurd e hf
      · exact Or.inl rfl
      · exact Or.inr (Or.inl rfl)
      · exact absurd e hc
      · exact absurd e hs
    have h1 : p.Keeps (q.changeSlot n fun s => { s with state := .complete, deadline := none }) :=
      h.changeSlot_current cur rfl rfl rfl
    exact ite h1.raise.tellWhole (h.changeSlot_current cur rfl rfl rfl)

theorem fileCopy {n : Fin 512} {ref : EntryRef} {c : Copy} : p.Keeps (q.fileCopy n ref c) := h.applyCopy.slotFollows

theorem interruptCursors {s : SlotRef} {ref : EntryRef} : p.Keeps (q.interruptCursors s ref) :=
  h.trans
    ⟨⟨rfl, rfl, rfl, fun _ _ => rfl, id, id, id, id,
        fun y k => by
          have e : (q.interruptCursors s ref).channels[k].queue = q.channels[k].queue := by
            unfold Part.interruptCursors
            rw [Fin.getElem_fin, Vector.getElem_map]
            rfl
          rw [e]
          exact y k,
        id⟩,
      fun _ hn => ⟨hn, rfl, rfl, rfl, id⟩⟩

theorem leaveGood {n : Fin 512} {ref : EntryRef} {st : EntryState} {d : Detail} {i : DamageInfo} :
    p.Keeps (q.leaveGood n ref st d i) := by
  have h2 : p.Keeps ((q.interruptCursors { slot := n, alloc := q.slots[n].alloc } ref).changeSlot n fun s =>
      s.setEntry ref { s.entry ref with state := st, detail := d, repeats := 0 }) :=
    h.interruptCursors.setEntry (e := fun s => { s.entry ref with state := st, detail := d, repeats := 0 })
  have h3 := h2.damaged (n := n) (ref := ref) (d := i)
  have same : (((q.interruptCursors { slot := n, alloc := q.slots[n].alloc } ref).changeSlot n fun s =>
      s.setEntry ref { s.entry ref with state := st, detail := d, repeats := 0 }).damaged n ref i).slots[n].state
        = q.slots[n].state := by
    rw [Part.damaged_slots, Part.changeSlot_get]
    exact (Slot.setEntry_same _ ref _).2.1
  unfold Part.leaveGood
  extract_lets s w p1 p2 p3
  change p.Keeps p3 at h3
  change p3.slots[n].state = s.state at same
  clear_value p3
  have h4 : p.Keeps
      (if s.state = .complete then
        (p3.changeSlot n fun s => { s with state := .filling, deadline := some p3.gapDeadline }).raise .pageIncomplete
          (.page { s.form n with kind := ref.kindCode, index := ref.index })
      else p3) := by
    by_cases c : s.state = .complete
    · rw [if_pos c]
      refine Part.Keeps.raise (h3.changeSlot_current ?_ rfl rfl rfl)
      exact Slot.current_of_state (Or.inr (Or.inr (same.trans c)))
    · rw [if_neg c]
      exact h3
  exact ite h4.tellNotWhole h4

/-! ## Filing -/

theorem badIndex {id : Identity} {v : Nat} {k : ParcelKind} {i : Nat} {st : Fin 4} {b : Nat}
    {s : Option (Fin 512)} : p.Keeps (q.badIndex id v k i st b s) := h.raise

/-- A candidate whose key is not in the queue. -/
theorem enterOrphan {o : Orphan} (new : ∀ y ∈ q.orphans, y.sameKey o = false) : p.Keeps (q.enterOrphan o) := by
  unfold Part.enterOrphan
  split
  · rename_i room
    exact h.setOrphans (Part.orphansBounded_append (List.Sublist.refl _) room new)
  · split
    · exact h.orphanDropped
    · rename_i x hx
      have mem : x ∈ q.orphans := List.mem_of_find?_eq_some hx
      refine Part.Keeps.orphanDropped (h.setOrphans fun b => ?_)
      refine Part.orphansBounded_append List.erase_sublist ?_ (fun y hy => new y (List.mem_of_mem_erase hy)) b
      rw [List.length_erase_of_mem mem]
      have := b.1
      have := List.length_pos_of_mem mem
      omega

theorem orphanCandidate {c : Parcel} : p.Keeps (q.orphanCandidate c) := by
  unfold Part.orphanCandidate
  extract_lets o
  refine ite h.badIndex (ite h.orphanDropped (ite h.orphanDropped ?_))
  split
  · rename_i hn
    refine h.enterOrphan fun y hy => ?_
    have := List.find?_eq_none.mp hn y hy
    rw [Orphan.sameKey_symm]
    simpa using this
  · refine ite (h.setOrphans ?_) h.orphanDropped
    refine Part.orphansBounded_map _ fun y _ => ?_
    split
    · rename_i e
      exact (Orphan.sameKey_iff _ _).mp e
    · exact ⟨rfl, rfl, rfl, rfl⟩

theorem lateValidation {c : Parcel} {n : Fin 512} : p.Keeps (q.lateValidation c n) := by
  unfold Part.lateValidation
  extract_lets o
  by_cases e : q.orphans.any o.sameKey = true
  · rw [if_pos e]
    exact h.orphanDropped
  · rw [if_neg e]
    refine h.enterOrphan fun y hy => ?_
    rw [Orphan.sameKey_symm]
    cases hk : o.sameKey y
    · rfl
    · exact absurd (List.any_eq_true.mpr ⟨y, hy, hk⟩) e

theorem fileInto {c : Parcel} {n : Fin 512} : p.Keeps (q.fileInto c n) := by
  unfold Part.fileInto
  dsimp only
  split
  · exact h.badIndex
  · split
    · exact h.lateValidation
    · exact h.fileCopy

theorem fileBandTone {c : Parcel} : p.Keeps (q.fileBandTone c) := by
  unfold Part.fileBandTone
  cases q.versionSlot c.header.id c.header.version with
  | none =>
    rw [Part.fileBandToneIn]
    exact ite h h.orphanCandidate
  | some n =>
    rw [Part.fileBandToneIn]
    exact h.fileInto

/-! ## Adoption -/

theorem completeAdoption {o : Orphan} {b : Binding} {ref : EntryRef} {j : Judgement} :
    p.Keeps (q.completeAdoption o b ref j) :=
  Part.Keeps.fileCopy (h.setOrphans (Part.orphansBounded_sublist List.erase_sublist))

theorem startAdoption {o : Orphan} {b : Binding} : p.Keeps (q.startAdoption o b) := by
  unfold Part.startAdoption
  extract_lets g
  split
  · exact Part.Keeps.badIndex (h.setOrphans (Part.orphansBounded_sublist List.erase_sublist))
  · exact h.completeAdoption
  · refine h.ownRead.setOrphans (Part.orphansBounded_map _ fun y _ => ?_)
    split
    · rename_i e
      subst e
      exact ⟨rfl, rfl, rfl, rfl⟩
    · exact ⟨rfl, rfl, rfl, rfl⟩

theorem endAdoption {o : Orphan} {b : Binding} {cells : List Host.Cell} : p.Keeps (q.endAdoption o b cells) := by
  unfold Part.endAdoption
  extract_lets g
  split
  · exact h
  · exact h.ownRead.completeAdoption

/-! ## The trample monitor -/

theorem trampleSlot {t : Trample} {n : Fin 512} : p.Keeps (q.trampleSlot t n) :=
  h.foldl _ (fun a _ => ite (refl a).leaveGood (refl a)) _

theorem trampleOrphans {t : Trample} : p.Keeps (q.trampleOrphans t) := by
  unfold Part.trampleOrphans
  extract_lets hit marked dropped p1
  have h1 : p.Keeps p1 := by
    refine h.setOrphans fun b => ?_
    have hm : (q.setOrphans marked).orphansBounded := by
      refine Part.orphansBounded_map _ (fun y _ => ?_) b
      split
      · exact ⟨rfl, rfl, rfl, rfl⟩
      · split <;> exact ⟨rfl, rfl, rfl, rfl⟩
    exact Part.orphansBounded_sublist (q := q.setOrphans marked) List.filter_sublist hm
  exact h1.foldl _ (fun a _ => (refl a).orphanDropped) _

theorem trampleTransit {t : Trample} : p.Keeps (q.trampleTransit t) := h.setTransit

theorem trampleTest {s : Fin 16} {b : Nat} : p.Keeps (q.trampleTest s b) := by
  unfold Part.trampleTest
  extract_lets t p1
  have h1 : p.Keeps p1 := h.foldl _ (fun a _ => (refl a).trampleSlot) _
  exact h1.trampleOrphans.trampleTransit

/-- The law of current slots goes on where no slot is opened. -/
theorem currentSlots (law : p.currentSlots) : q.currentSlots := by
  intro n m ne cur use same
  have hn := h.slots n (Slot.inUse_of_current cur)
  have hm := h.slots m use
  have old := law n m ne (hn.2.2.2.2 cur) hm.1 (by rw [← hm.2.1, ← hn.2.1, same])
  refine ⟨Slot.superseded_of use fun c => ?_, by rw [hm.2.2.1, hn.2.2.1]; exact old.2⟩
  have := hm.2.2.2.2 c
  rw [Slot.current, old.1] at this
  exact absurd this (by simp)

end Part.Keeps

end Sys2Proof.Machine
end

