-- ==== Sys2Proof/Laws/KeepsOpens.lean ====
section
/-! SUPPORT. Searches of the tables, and the one act that opens a slot: `Part.Evolves` for it, and the law of current
slots across it (R27, R29, R30). -/

namespace Sys2Proof.Machine

/-! ## Searches -/

theorem numbered_eq {α : Type} {n : Nat} (v : Vector α n) : numbered v = (List.finRange n).map fun i => (i, v[i]) := by
  apply List.ext_getElem <;> simp [numbered]

theorem mem_numbered {α : Type} {n : Nat} (v : Vector α n) (i : Fin n) : (i, v[i]) ∈ numbered v := by
  rw [numbered_eq]
  exact List.mem_map.mpr ⟨i, List.mem_finRange i, rfl⟩

theorem numbered_get {α : Type} {n : Nat} (v : Vector α n) {x : Fin n × α} (h : x ∈ numbered v) : x.2 = v[x.1] := by
  rw [numbered_eq] at h
  obtain ⟨i, _, rfl⟩ := List.mem_map.mp h
  rfl

/-- What a search of a table finds meets the test. -/
theorem findNumbered_some {α : Type} {n : Nat} {v : Vector α n} {test : α → Bool} {i : Fin n}
    (h : (((numbered v).find? fun x => test x.2).map fun x => x.1) = some i) : test v[i] = true := by
  obtain ⟨x, hx, rfl⟩ := Option.map_eq_some_iff.mp h
  have := List.find?_some hx
  rwa [numbered_get v (List.mem_of_find?_eq_some hx)] at this

/-- A search of a table that finds none fails everywhere. -/
theorem findNumbered_none {α : Type} {n : Nat} {v : Vector α n} {test : α → Bool}
    (h : (((numbered v).find? fun x => test x.2).map fun x => x.1) = none) (i : Fin n) : test v[i] = false := by
  have := List.find?_eq_none.mp (Option.map_eq_none_iff.mp h) (i, v[i]) (mem_numbered v i)
  exact Bool.eq_false_iff.mpr this

theorem Part.findSlot_some {p : Part} {test : Slot → Bool} {n : Fin 512} (h : p.findSlot test = some n) :
    test p.slots[n] = true := findNumbered_some h

theorem Part.findSlot_none {p : Part} {test : Slot → Bool} (h : p.findSlot test = none) (n : Fin 512) :
    test p.slots[n] = false := findNumbered_none h n

/-- No in-use slot of an identity that is not outdated has its version or a later one. -/
theorem Part.below_of_not_outdated {p : Part} {id : Identity} {v : Nat} (h : p.outdated id v = false) (m : Fin 512)
    (use : p.slots[m].inUse = true) (same : p.slots[m].id = id) : p.slots[m].version < v := by
  have e : p.findSlot (fun s => s.inUse && s.id == id && decide (v ≤ s.version)) = none :=
    Option.isSome_eq_false_iff.mp h |> Option.isNone_iff_eq_none.mp
  have := Part.findSlot_none e m
  rw [use, same, beq_self_eq_true, Bool.true_and, Bool.true_and, decide_eq_false_iff_not] at this
  omega

/-! ## The opening of a slot -/

/-- The mirror writes of a change leave all but memory and the port. -/
theorem Part.changeSlot_keeps (q : Part) (n : Fin 512) (f : Slot → Slot) :
    (q.setSlot n { f q.slots[n] with change := q.slots[n].change + 1 }).Keeps (q.changeSlot n f) := by
  unfold Part.changeSlot
  dsimp only
  exact (Part.Keeps.refl _).mirrorWrite fun _ x => List.mem_of_mem_filter x

namespace Part.Evolves

variable {p q : Part} (h : p.Evolves q)
include h

theorem setSlot {n : Fin 512} {x : Slot} : p.Evolves (q.setSlot n x) :=
  h.trans ⟨rfl, rfl, rfl, fun _ _ => rfl, id, id, id, id, id, id⟩

theorem changeSlot {n : Fin 512} {f : Slot → Slot} : p.Evolves (q.changeSlot n f) :=
  h.setSlot.trans (Part.changeSlot_keeps q n f).toEvolves

end Part.Evolves

theorem Part.Keeps.adoptOrphans {p q : Part} (h : p.Keeps q) {id : Identity} {v : Nat} {ref : SlotRef} :
    p.Keeps (q.adoptOrphans id v ref) := by
  refine h.setOrphans (Part.orphansBounded_map _ fun y _ => ?_)
  split <;> exact ⟨rfl, rfl, rfl, rfl⟩

/-- The rest of a supersession once the old slot is SUPERSEDED. -/
theorem Part.supersede_keeps (q : Part) (old new : Fin 512) :
    (q.changeSlot old fun s => { s with state := .superseded, deadline := none }).Keeps (q.supersede old new) := by
  unfold Part.supersede
  have h1 := (Part.Keeps.refl (q.changeSlot old fun s => { s with state := .superseded, deadline := none }))
  exact Part.Keeps.ite h1.raise.freeSlot h1.raise

/-- The slot opened and PAGE_OPENED raised (R29). -/
def Part.openedSlot (p : Part) (c : Parcel) (n : Fin 512) : Part :=
  let q := p.changeSlot n fun s => s.opened c p.gapDeadline
  q.raise .pageOpened (.page { q.slots[n].form n with a := c.header.bandCount, b := c.header.toneCount })

/-- The slots as a valid new HEAD leaves them before anything else is told of it (R29, R30). -/
def Part.openedSlots (p : Part) (c : Parcel) (n : Fin 512) : Part :=
  match p.currentSlot c.header.id with
  | none => p.openedSlot c n
  | some m => (p.openedSlot c n).changeSlot m fun s => { s with state := .superseded, deadline := none }

theorem Part.openedSlots_evolves (p : Part) (c : Parcel) (n : Fin 512) : p.Evolves (p.openedSlots c n) := by
  have h1 : p.Evolves (p.changeSlot n fun s => s.opened c p.gapDeadline) := (Part.Evolves.refl p).changeSlot
  have h2 : p.Evolves (p.openedSlot c n) := h1.trans (Part.Keeps.raise (Part.Keeps.refl _)).toEvolves
  unfold Part.openedSlots
  split
  · exact h2
  · exact h2.changeSlot

theorem Part.openPage_keeps (p : Part) (c : Parcel) (n : Fin 512) : (p.openedSlots c n).Keeps (p.openPage c n) := by
  unfold Part.openPage Part.openedSlots
  dsimp only
  refine Part.Keeps.tellCurrent (Part.Keeps.adoptOrphans (Part.Keeps.dropOrphans ?_))
  cases p.currentSlot c.header.id with
  | none => exact Part.Keeps.refl _
  | some m => exact Part.supersede_keeps _ _ _

theorem Part.openPage_evolves (p : Part) (c : Parcel) (n : Fin 512) : p.Evolves (p.openPage c n) :=
  (p.openedSlots_evolves c n).trans (p.openPage_keeps c n).toEvolves

theorem Part.openedSlot_slots (p : Part) (c : Parcel) (n : Fin 512) :
    (p.openedSlot c n).slots = (p.changeSlot n fun s => s.opened c p.gapDeadline).slots :=
  Part.raise_slots _ _ _

/-- The law of current slots across the opening (R30). -/
theorem Part.openedSlots_currentSlots (p : Part) (c : Parcel) (n : Fin 512) (free : p.slots[n].state = .free)
    (newer : p.outdated c.header.id c.header.version = false) (law : p.currentSlots) :
    (p.openedSlots c n).currentSlots := by
  have below := fun m => Part.below_of_not_outdated newer m
  have at_n : (p.openedSlot c n).slots[n].current = true ∧ (p.openedSlot c n).slots[n].id = c.header.id
      ∧ (p.openedSlot c n).slots[n].version = c.header.version := by
    rw [Part.openedSlot_slots, Part.changeSlot_get]
    exact ⟨rfl, rfl, rfl⟩
  have off_n : ∀ m : Fin 512, m ≠ n → (p.openedSlot c n).slots[m] = p.slots[m] := by
    intro m hm
    rw [Part.openedSlot_slots, Part.changeSlot_get_ne _ _ _ _ hm]
  unfold Part.openedSlots
  cases e : p.currentSlot c.header.id with
  | none =>
    have none_current : ∀ m : Fin 512, p.slots[m].id = c.header.id → ¬ p.slots[m].current = true := by
      intro m same cur
      have := Part.findSlot_none e m
      rw [cur, same, beq_self_eq_true] at this
      exact absurd this (by decide)
    intro a b ne cur use same
    dsimp only at cur use same ⊢
    by_cases ha : a = n
    · subst ha
      rw [at_n.2.1] at same
      rw [off_n b (Ne.symm ne)] at use same ⊢
      rw [at_n.2.2]
      exact ⟨Slot.superseded_of use (none_current b same), below b use same⟩
    · rw [off_n a ha] at cur same ⊢
      by_cases hb : b = n
      · subst hb
        rw [at_n.2.1] at same
        exact absurd cur (none_current a same.symm)
      · rw [off_n b hb] at use same ⊢
        exact law a b ne cur use same
  | some m =>
    have old : p.slots[m].current = true ∧ p.slots[m].id = c.header.id := by
      have := Part.findSlot_some e
      simpa using this
    have hm : m ≠ n := by
      rintro rfl
      have := old.1
      rw [Slot.current, free] at this
      exact absurd this (by decide)
    intro a b ne cur use same
    dsimp only at cur use same ⊢
    by_cases am : a = m
    · subst am
      rw [Part.changeSlot_get] at cur
      exact absurd cur (by simp [Slot.current])
    rw [Part.changeSlot_get_ne _ _ _ _ am] at cur same ⊢
    by_cases ha : a = n
    · subst ha
      rw [at_n.2.1] at same
      rw [at_n.2.2]
      by_cases bm : b = m
      · subst bm
        rw [Part.changeSlot_get, off_n b hm]
        exact ⟨rfl, below b (Slot.inUse_of_current old.1) old.2⟩
      · rw [Part.changeSlot_get_ne _ _ _ _ bm, off_n b (Ne.symm ne)] at use same ⊢
        exact ⟨(law m b (Ne.symm bm) old.1 use (same.trans old.2.symm)).1, below b use same⟩
    · rw [off_n a ha] at cur same ⊢
      by_cases hb : b = n
      · subst hb
        rw [Part.changeSlot_get_ne _ _ _ _ (Ne.symm hm), at_n.2.1] at same
        have := (law a m am cur (Slot.inUse_of_current old.1) (old.2.trans same)).1
        rw [Slot.current, this] at old
        exact absurd old.1 (by decide)
      · by_cases bm : b = m
        · subst bm
          rw [Part.changeSlot_get, off_n b hb] at same
          have := (law a b ne cur (Slot.inUse_of_current old.1) same).1
          rw [Slot.current, this] at old
          exact absurd old.1 (by decide)
        · rw [Part.changeSlot_get_ne _ _ _ _ bm, off_n b hb] at use same ⊢
          exact law a b ne cur use same

theorem Part.Keeps.duplicateHead {p q : Part} (h : p.Keeps q) {c : Parcel} {n : Fin 512} :
    p.Keeps (q.duplicateHead c n) := by
  unfold Part.duplicateHead
  dsimp only
  refine Part.Keeps.slotFollows ?_
  split
  · exact h
  · exact h.raise

/-- The filing of a HEAD keeps the part, or opens the lowest FREE slot for a version newer than every in-use slot of
its identity (R27). -/
theorem Part.fileHead_cases (p : Part) (c : Parcel) :
    p.Keeps (p.fileHead c) ∨
      ∃ n, p.slots[n].state = .free ∧ p.outdated c.header.id c.header.version = false
        ∧ p.fileHead c = p.openPage c n := by
  have h := Part.Keeps.refl p
  unfold Part.fileHead
  cases p.versionSlot c.header.id c.header.version with
  | some n =>
    rw [Part.fileHeadIn]
    exact Or.inl h.duplicateHead
  | none =>
    rw [Part.fileHeadIn]
    by_cases o : p.outdated c.header.id c.header.version = true
    · rw [if_pos o]
      exact Or.inl h
    · rw [if_neg o]
      unfold Part.newHead
      split
      · exact Or.inl h.raise
      · cases e : p.findSlot fun s => s.state == .free with
        | none =>
          rw [Part.openLowest]
          exact Or.inl h.raise
        | some n =>
          rw [Part.openLowest]
          have free := Part.findSlot_some e
          exact Or.inr ⟨n, by simpa using free, by simpa using o, rfl⟩

theorem Part.fileHead_evolves (p : Part) (c : Parcel) : p.Evolves (p.fileHead c) := by
  rcases p.fileHead_cases c with h | ⟨n, _, _, e⟩
  · exact h.toEvolves
  · rw [e]
    exact p.openPage_evolves c n

/-- The law of current slots goes on across the filing of a HEAD (R27, R30). -/
theorem Part.fileHead_currentSlots (p : Part) (c : Parcel) (law : p.currentSlots) : (p.fileHead c).currentSlots := by
  rcases p.fileHead_cases c with h | ⟨n, free, newer, e⟩
  · exact h.currentSlots law
  · rw [e]
    exact (p.openPage_keeps c n).currentSlots (p.openedSlots_currentSlots c n free newer law)

end Sys2Proof.Machine
end

