-- ==== Sys2Proof/Laws/KeepsExposure.lean ====
section
/-! SUPPORT. `Part.Keeps` for the band expander and the raster composers. -/

namespace Sys2Proof.Machine

namespace Part.Keeps

variable {p q : Part} (h : p.Keeps q)
include h

/-- A channel replaced by one with the same queue. -/
theorem setChannel_same {k : Fin 2} {c : Channel} (queue : c.queue = q.channels[k].queue) : p.Keeps (q.setChannel k c) :=
  h.setChannel fun b => by rw [queue]; exact b

theorem changeSummary {n : Fin 64} {f : Summary → Summary} : p.Keeps (q.changeSummary n f) := h.changePlate

theorem startPlate {k : Fin 2} {n : Fin 64} : p.Keeps (q.startPlate k n) := by
  unfold Part.startPlate
  dsimp only
  refine Part.Keeps.raise (Part.Keeps.plateStatus (Part.Keeps.changePlate (Part.Keeps.setChannel_same ?_ ?_)))
  · refine Part.Keeps.changeChannel h.changePlate ?_
    exact id
  · rfl

theorem restartPass {k : Fin 2} {n : Fin 64} : p.Keeps (q.restartPass k n) := by
  unfold Part.restartPass
  dsimp only
  refine Part.Keeps.raise (Part.Keeps.plateStatus (Part.Keeps.changeSummary ?_))
  refine h.setChannel_same ?_
  rfl

theorem idleRead {k : Fin 2} {o : Nat} {s : Fin 16} : p.Keeps (q.idleRead k o s) := by
  have h1 : p.Keeps (q.setChannel k
      { q.channels[k] with idleReads := satInc Config.max32 q.channels[k].idleReads, idlePending := false }) :=
    h.setChannel_same rfl
  unfold Part.idleRead
  exact ite h1.headerWrite.raise h1

theorem takeInHand {k : Fin 2} {n : Fin 64} {o : Nat} {cells : List Host.Cell} : p.Keeps (q.takeInHand k n o cells) := by
  unfold Part.takeInHand
  extract_lets copy x
  have h1 : p.Keeps (if requestsRead q.channels[k].cursors x.2 then q.ownRead else q) := ite h.ownRead h
  refine h1.setChannel_same ?_
  split <;> rfl

theorem exposingRead {k : Fin 2} {n : Fin 64} {o : Nat} {cells : List Host.Cell} :
    p.Keeps (q.exposingRead k n o cells).1 := by
  unfold Part.exposingRead
  dsimp only
  split
  · dsimp only
    exact h.changeSummary
  · split
    · exact h.restartPass.takeInHand
    · split
      · dsimp only
        refine Part.Keeps.takeInHand (h.setChannel_same ?_)
        rfl
      · exact h.takeInHand

theorem readUndrained {k : Fin 2} {o : Nat} {s : Fin 16} {cells : List Host.Cell} :
    p.Keeps (q.readUndrained k o s cells).1 := by
  unfold Part.readUndrained
  dsimp only
  split
  · exact h.startPlate.exposingRead
  · exact h.exposingRead
  · exact h.idleRead

omit h in
theorem endDraining_queue (c : Channel) : c.endDraining.queue = c.queue := by
  unfold Channel.endDraining
  split <;> rfl

theorem windowRead {k : Fin 2} {o : Nat} {s : Fin 16} {cells : List Host.Cell} :
    p.Keeps (q.windowRead k o s cells).1 := by
  unfold Part.windowRead
  dsimp only
  split
  · split
    · exact Part.Keeps.readUndrained (h.changeChannel fun b => by rw [endDraining_queue]; exact b)
    · refine h.setChannel_same ?_
      rfl
  · exact h.readUndrained

theorem completeOpen {k : Fin 2} {c : Cursor} {x : InHand} {it : PrepItem} {w : OpenTarget} {o : Opening}
    {cells : List Host.Cell} : p.Keeps (q.completeOpen k c x it w o cells) := by
  unfold Part.completeOpen
  dsimp only
  split
  · refine Part.Keeps.leaveGood ?_
    refine h.ownRead.setChannel_same ?_
    rfl
  · refine h.ownRead.setChannel_same ?_
    rfl

theorem reportHatch {k : Fin 2} {n : Fin 64} {o : Nat} {c : Option HatchCause} : p.Keeps (q.reportHatch k n o c) := by
  unfold Part.reportHatch
  split
  · exact h
  · refine ite h ?_
    refine Part.Keeps.raise (Part.Keeps.plateStatus ?_)
    refine h.setChannel_same ?_
    rfl

theorem reportMark {k : Fin 2} {n : Fin 64} {o : Nat} : p.Keeps (q.reportMark k n o) := by
  unfold Part.reportMark
  refine ite ?_ h
  refine Part.Keeps.raise (Part.Keeps.plateStatus ?_)
  refine h.setChannel_same ?_
  rfl

theorem endClosing {k : Fin 2} : p.Keeps (q.endClosing k) :=
  h.forEach _ fun a _ => ite (refl a).setWindow.statusWrite.finish (refl a)

theorem dropCursors {k : Fin 2} : p.Keeps (q.dropCursors k) := h.setChannel_same rfl

theorem leaveExposing {k : Fin 2} {n : Fin 64} {f : List (Fin 64) → ChannelState} : p.Keeps (q.leaveExposing k n f) := by
  unfold Part.leaveExposing
  dsimp only
  refine Part.Keeps.foldl (h.changeChannel fun b => ?_) _ (fun a _ => (refl a).plateStatus) _
  exact Nat.le_trans (List.length_filter_le _ _) b

theorem endPlate {k : Fin 2} {n : Fin 64} : p.Keeps (q.endPlate k n) := by
  unfold Part.endPlate
  dsimp only
  exact h.changeSummary.changePlate.unpinAll.dropUse.dropCursors.plateStatus.raise.leaveExposing.feed.endClosing

theorem accountBlock {k : Fin 2} {x : InHand} {y : Composed} : p.Keeps (q.accountBlock k x y) := by
  have h1 : p.Keeps (q.setChannel k { q.channels[k].account x.offset y.bytes with inHand := none }) :=
    h.setChannel_same rfl
  unfold Part.accountBlock
  exact ite h1.changeSummary.reportHatch.reportMark.endPlate h1.changeSummary.reportHatch.reportMark

theorem endCancelled {k : Fin 2} {x : InHand} : p.Keeps (q.endCancelled k x) := by
  unfold Part.endCancelled
  refine Part.Keeps.changeUse ?_
  refine h.setChannel_same ?_
  rfl

theorem serveBlock {k : Fin 2} {x : InHand} {t : TileMemory} : p.Keeps (q.serveBlock k x t).1 := by
  unfold Part.serveBlock
  exact ite h.accountBlock h.endCancelled

end Part.Keeps

end Sys2Proof.Machine
end

