-- ==== Sys2Proof/Laws/KeepsTraffic.lean ====
section
/-! SUPPORT. `Part.Keeps` for the intake and the memory path; a forwarded write is the only act that changes a byte
outside the part-owned lines. -/

namespace Sys2Proof.Machine

/-- A read block is forwarded to the memory controller or taken by a composer (R125, R167). -/
theorem Part.takeReadBlock_cases (p : Part) (r : ReadBlock) :
    p.takeReadBlock r = some (p.readMemory r) ∨ ∃ n, p.takeReadBlock r = p.readWindow r n := by
  unfold Part.takeReadBlock
  cases p.classify r.addr.toNat with
  | control line => exact Or.inl rfl
  | plate n => exact Or.inr ⟨n, rfl⟩
  | intake n => exact Or.inl rfl
  | memory => exact Or.inl rfl

/-- What becomes of a write block, by its class (R167). -/
theorem Part.takeWriteBlock_class (p : Part) (w : WriteBlock) :
    (∃ line, p.takeWriteBlock w = p.writeControl w line) ∨ p.takeWriteBlock w = (p, .refused)
      ∨ (∃ n, p.takeWriteBlock w = (p.writeIntake w n, .forwarded))
      ∨ p.takeWriteBlock w = (p.forwardWrite w, .forwarded) := by
  unfold Part.takeWriteBlock
  cases p.classify w.addr.toNat with
  | control line => exact Or.inl ⟨line, rfl⟩
  | plate n => exact Or.inr (Or.inl rfl)
  | intake n => exact Or.inr (Or.inr (Or.inl ⟨n, rfl⟩))
  | memory => exact Or.inr (Or.inr (Or.inr rfl))

namespace Part.Keeps

variable {p q : Part} (h : p.Keeps q)
include h

/-! ## Intake -/

theorem changeParser {k : Fin 4} {f : Parser → Parser} : p.Keeps (q.changeParser k f) := h.setParser.headerWrite

theorem filterDecide {x : Header} : p.Keeps (q.filterDecide x).1 := by
  unfold Part.filterDecide
  split
  · exact h
  · dsimp only
    exact h.setFilter.statusWrite

theorem decideHeader {x : Header} {f : Option FieldFault} : p.Keeps (q.decideHeader x f).1 := by
  have h1 := h.filterDecide (x := x)
  unfold Part.decideHeader
  split
  · exact h
  · split <;> rename_i e <;> rw [e] at h1 <;> exact h1

theorem reportGap {k : Fin 4} {c : SequenceCheck} {a : Nat} : p.Keeps (q.reportGap k c a) := by
  unfold Part.reportGap
  split
  · exact h
  · exact h
  · exact h.raise

theorem finishParcel {b : ParserBlock} : p.Keeps (q.finishParcel b) := by
  unfold Part.finishParcel
  dsimp only
  split
  · exact h
  · split
    · exact h.changeParser.raise
    · exact h.setTransit.changeParser
    · exact h.changeParser
    · exact h.changeParser

theorem startParcel {b : ParserBlock} {r : Bool} : p.Keeps (q.startParcel b r) := by
  unfold Part.startParcel
  exact ite h.changeParser.reportGap.decideHeader.changeParser.finishParcel
    h.changeParser.reportGap.decideHeader.changeParser

theorem stray {k : Fin 4} : p.Keeps (q.stray k) := h.changeParser

theorem huntBlock {b : ParserBlock} : p.Keeps (q.huntBlock b) := by
  unfold Part.huntBlock
  split
  · exact h.startParcel
  · exact h.stray

theorem seekBlock {b : ParserBlock} : p.Keeps (q.seekBlock b) := by
  unfold Part.seekBlock
  dsimp only
  split
  · exact h.startParcel
  · exact ite h.changeParser.raise h.stray

theorem reportBroken {k : Fin 4} {x : Parser} {c : BreakCause} {a : Option Nat} : p.Keeps (q.reportBroken k x c a) := by
  unfold Part.reportBroken
  split
  · exact h
  · exact h.raise

theorem payloadBlock {b : ParserBlock} : p.Keeps (q.payloadBlock b) := by
  unfold Part.payloadBlock
  dsimp only
  split
  · exact ite h.setParser.finishParcel h.setParser
  · exact h.changeParser.reportBroken.huntBlock

theorem parserBlock {b : ParserBlock} : p.Keeps (q.parserBlock b) := by
  unfold Part.parserBlock
  split
  · exact h.seekBlock
  · exact h.huntBlock
  · exact h.payloadBlock

theorem closeParser {k : Fin 4} : p.Keeps (q.closeParser k) := by
  unfold Part.closeParser
  exact ite h.changeParser.reportBroken h.changeParser

/-! ## The path -/

theorem takeCommand {r : RecordId} : p.Keeps (q.takeCommand r) := h.ownRead.setRecord

theorem readCountBlock {w : WriteBlock} : p.Keeps (q.readCountBlock w) := by
  unfold Part.readCountBlock
  exact ite h.takeReadCount h

theorem readMemory {r : ReadBlock} : p.Keeps (q.readMemory r).1 :=
  h.tables { q with port := q.port.grantPassing }

theorem readWindow {r : ReadBlock} {n : Fin 16} {x : Part × BlockOutcome} (e : q.readWindow r n = some x) :
    p.Keeps x.1 := by
  unfold Part.readWindow at e
  dsimp only at e
  split at e
  · exact absurd e (by simp)
  · rw [← Option.some.inj e]
    exact h.windowRead

theorem takeReadBlock {r : ReadBlock} {x : Part × BlockOutcome} (e : q.takeReadBlock r = some x) : p.Keeps x.1 := by
  rcases q.takeReadBlock_cases r with e1 | ⟨n, e1⟩
  · rw [e1] at e
    rw [← Option.some.inj e]
    exact h.readMemory
  · rw [e1] at e
    exact h.readWindow e

end Part.Keeps

/-- What follows a forwarded write keeps the part. -/
theorem Part.forwardWrite_keeps (p : Part) (w : WriteBlock) :
    (p.forward w.addr.toNat w.data w.strobes).Keeps (p.forwardWrite w) := (Part.Keeps.refl _).trampleTest

/-- A write block of a control-area line is refused and changes nothing, or is forwarded (R167, R176, R178). -/
theorem Part.writeControl_cases (p : Part) (w : WriteBlock) (line : Line) :
    p.writeControl w line = (p, .refused) ∨
      (p.writeControl w line).2 = .forwarded ∧ (p.forwardWrite w).Keeps (p.writeControl w line).1 := by
  have h := Part.Keeps.refl (p.forwardWrite w)
  unfold Part.writeControl
  split
  · exact Or.inl rfl
  · exact Or.inr ⟨rfl, h⟩
  · exact Or.inr ⟨rfl, h.readCountBlock⟩
  · split
    · exact Or.inl rfl
    · split
      · split
        · exact Or.inl rfl
        · exact Or.inr ⟨rfl, h.takeCommand⟩
      · exact Or.inr ⟨rfl, h⟩

theorem Part.writeIntake_keeps (p : Part) (w : WriteBlock) (n : Fin 16) :
    (p.forwardWrite w).Keeps (p.writeIntake w n) := (Part.Keeps.refl _).parserBlock

/-- A write block is refused and changes nothing, or is forwarded, and what follows keeps the part (R167). -/
theorem Part.takeWriteBlock_cases (p : Part) (w : WriteBlock) :
    p.takeWriteBlock w = (p, .refused) ∨
      (p.takeWriteBlock w).2 = .forwarded
        ∧ (p.forward w.addr.toNat w.data w.strobes).Keeps (p.takeWriteBlock w).1 := by
  have h := p.forwardWrite_keeps w
  rcases p.takeWriteBlock_class w with ⟨line, e⟩ | e | ⟨n, e⟩ | e <;> rw [e]
  · rcases p.writeControl_cases w line with e | e
    · exact Or.inl e
    · exact Or.inr ⟨e.1, h.trans e.2⟩
  · exact Or.inl rfl
  · refine Or.inr ⟨rfl, ?_⟩
    dsimp only
    exact h.trans (p.writeIntake_keeps w n)
  · exact Or.inr ⟨rfl, h⟩

end Sys2Proof.Machine
end

