-- ==== Sys2Proof/Laws/KeepsCommands.lean ====
section
/-! SUPPORT. `Part.Keeps` for the meanings: every command but the two reset commands, the tick, the forwarded writes and
the filing of a HEAD keeps the part. -/

namespace Sys2Proof.Machine

theorem ReportUnit.restarted_readBounded : ReportUnit.restarted.readBounded := by
  unfold ReportUnit.readBounded
  decide

namespace Part.Keeps

variable {p q : Part} (h : p.Keeps q)
include h

/-! ## Dispatch and the sweeps -/

theorem setStage {r : RecordId} {s : CmdStage} : p.Keeps (q.setStage r s) := h.setRecord

theorem dispatch {r : RecordId} {c : Option Command} {act : Part → Part} (hact : p.Keeps (act q)) :
    p.Keeps (q.dispatch r c act) := ite (ite h.setStage hact) h

theorem finishLoad {n : Fin 8} : p.Keeps (q.finishLoad n) := h.finish

theorem sweepItem {x : SweepItem} : p.Keeps (q.sweepItem x) := by
  unfold Part.sweepItem
  dsimp only
  split
  · exact ite h.setSweep.statusWrite.finishLoad h.setSweep.statusWrite
  · exact h.setSweep.statusWrite
  · exact h.setSweep.mirrorWrite fun b hb => hb

theorem sweepRest : p.Keeps q.sweepRest := h.foldl _ (fun a _ => (refl a).sweepItem) _

theorem sweepThrough {x : SweepItem} : p.Keeps (q.sweepThrough x) :=
  ite (h.foldl _ (fun a _ => (refl a).sweepItem) _) h

theorem endSweep {c : StartCause} : p.Keeps (q.endSweep c) := h.sweepRest.setSweep.raiseStarted

/-! ## Resets and time -/

theorem endStartUp : p.Keeps q.endStartUp := ite h.endSweep h

theorem clearForRestart : p.Keeps q.clearForRestart := by
  refine Part.Keeps.trans h ⟨⟨rfl, rfl, rfl, fun _ _ => rfl, id, fun _ => Nat.zero_le _, fun _ => ⟨Nat.zero_le _, ?_⟩,
    fun _ => ReportUnit.restarted_readBounded, id, fun _ => ⟨Nat.zero_le _, List.Pairwise.nil⟩⟩, fun n hn => ?_⟩
  · intro k
    show (Vector.replicate 4 0)[k] ≤ _
    rw [Fin.getElem_fin, Vector.getElem_replicate]
    exact Nat.zero_le _
  · have e : q.clearForRestart.slots[n] = {} := by
      show (Vector.replicate 512 ({} : Slot))[n] = {}
      rw [Fin.getElem_fin, Vector.getElem_replicate]
    rw [e] at hn
    exact absurd hn (by decide)

theorem restartParsers : p.Keeps q.restartParsers := h.forEach _ fun a _ => (refl a).changeParser

theorem restartChannels : p.Keeps q.restartChannels :=
  h.forEach _ fun a _ => (refl a).changeChannel fun _ => Nat.zero_le _

theorem acceptRestart : p.Keeps q.acceptRestart := h.setStage.clearForRestart.restartParsers.restartChannels

theorem restart : p.Keeps q.restart := ite h.finish h.acceptRestart

theorem endRestart : p.Keeps q.endRestart := ite h.endSweep.finishFree h

theorem busyResult {r : RecordId} : p.Keeps (q.busyResult r) := by
  unfold Part.busyResult
  split
  · split
    · exact h.sweepThrough.finish
    · exact h.sweepThrough.finish
    · exact ite h h.finish
  · exact h

theorem stall {n : Fin 512} : p.Keeps (q.stall n) := by
  unfold Part.stall
  by_cases c : q.gapExpired q.slots[n] = true
  · rw [if_pos c]
    refine Part.Keeps.raise (h.changeSlot_current ?_ rfl rfl rfl)
    unfold Part.gapExpired at c
    rw [Bool.and_eq_true, beq_iff_eq] at c
    exact Slot.current_of_state (Or.inl c.1)
  · rw [if_neg c]
    exact h

theorem expireOrphan {i : Nat} : p.Keeps (q.expireOrphan i) := by
  unfold Part.expireOrphan
  split
  · exact h
  · exact ite (Part.Keeps.orphanDropped (h.setOrphans (Part.orphansBounded_sublist (List.eraseIdx_sublist _ _)))) h

theorem passDeadline {n : Fin 64} : p.Keeps (q.passDeadline n) := by
  unfold Part.passDeadline
  exact ite (ite h.changePlate.plateStatus.deadlineAction.feedAll h.changePlate.plateStatus) h

/-! ## The directory's and the exposure's events -/

theorem fileNextBandTone {k : Fin 4} : p.Keeps (q.fileNextBandTone k) := by
  unfold Part.fileNextBandTone
  split
  · exact h
  · exact ite h h.setTransit.fileBandTone

theorem beginAdoption : p.Keeps q.beginAdoption := by
  unfold Part.beginAdoption
  split
  · exact h
  · exact h.startAdoption

theorem finishAdoption {cells : List Host.Cell} : p.Keeps (q.finishAdoption cells) := by
  unfold Part.finishAdoption
  split
  · exact h
  · exact h.endAdoption

theorem finishOpen {k : Fin 2} {i : Fin 4} {w : OpenTarget} {cells : List Host.Cell} :
    p.Keeps (q.finishOpen k i w cells) := by
  unfold Part.finishOpen
  split
  · exact h
  · exact h.completeOpen

/-! ## Host commands -/

theorem doSetParams : p.Keeps q.doSetParams := by
  unfold Part.doSetParams
  dsimp only
  split
  · exact h.finish
  · exact h.setParams.headerWrite.finish

theorem setUpParser {w : Window} : p.Keeps (q.setUpParser w) := by
  unfold Part.setUpParser
  split
  · exact h.changeParser
  · exact h

theorem doWindowLoad {n : Fin 16} : p.Keeps (q.doWindowLoad n) := by
  unfold Part.doWindowLoad
  dsimp only
  split
  · exact h.finish
  · exact h.setWindow.setUpParser.statusWrite.finishFree

theorem inactivate {n : Fin 16} : p.Keeps (q.inactivate n) := h.setWindow.statusWrite.finish

theorem doWindowClose {n : Fin 16} : p.Keeps (q.doWindowClose n) := by
  unfold Part.doWindowClose
  dsimp only
  split
  · exact h.finish
  · exact h
  · exact ite h.setWindow.setStage.statusWrite h.inactivate
  · exact h.setWindow.closeParser.statusWrite.finish
  · exact h.inactivate

theorem doFilterLoad {n : Fin 16} : p.Keeps (q.doFilterLoad n) := by
  unfold Part.doFilterLoad
  split
  · exact h.finishFree
  · exact h.setFilter.statusWrite.finishFree

theorem doFilterDisable {n : Fin 16} : p.Keeps (q.doFilterDisable n) := h.setFilter.statusWrite.finishFree

theorem doUnknown {r : RecordId} : p.Keeps (q.doUnknown r) := h.finish

theorem doSetLoad {n : Fin 8} : p.Keeps (q.doSetLoad n) := by
  unfold Part.doSetLoad
  dsimp only
  split
  · exact h.finish
  · exact h.setSet.setOwners.setStage.statusWrite

theorem completeLoad {n : Fin 8} {vs : List Nat} : p.Keeps (q.completeLoad n vs) :=
  ite h.ownRead.setSet.statusWrite h.ownRead.setSet.statusWrite.finishLoad

theorem doUnload {n : Fin 8} : p.Keeps (q.doUnload n) :=
  ite h.finish (ite h.setSet.setOwners.statusWrite.finish h.statusWrite.finish)

theorem armPlacement {n : Fin 64} {x : Fin 4 × Placement} : p.Keeps (q.armPlacement n x).1 := by
  unfold Part.armPlacement
  split
  · exact h
  · rename_i slot _
    have h1 := h.resolveTo (n := n) (k := x.1) (x := x.2) (slot := slot)
    split <;> rename_i e <;> rw [e] at h1 <;> exact h1

omit h in
theorem armResolve {n : Fin 64} : ∀ (xs : List (Fin 4 × Placement)) {q : Part}, p.Keeps q →
    p.Keeps (Part.armResolve n q xs).1
  | [], _, h => h
  | _ :: rest, _, h => armResolve rest h.armPlacement

theorem armPlate {n : Fin 64} {copy : PlateRecord} : p.Keeps (q.armPlate n copy) := by
  have h1 : p.Keeps (Part.armResolve n (q.setPlate n { state := .waiting, copy := copy }) copy.numberedPlacements).1 :=
    armResolve _ h.setPlate
  unfold Part.armPlate
  extract_lets p1 a p2 passed p3 ready fails tail p4 p5
  change p.Keeps a.1 at h1
  have h3 : p.Keeps p3 := h1.changePlate
  have h4 : p.Keeps p4 := ite h3.becomeReady (ite h3.failState (ite h3.becomeReady h3))
  have h5 : p.Keeps p5 := h4.plateStatus.foldl _ (fun a _ => (refl a).raise) _
  exact ite h5.failReport h5

theorem doArm {n : Fin 64} : p.Keeps (q.doArm n) := by
  unfold Part.doArm
  split
  · exact h.finish
  · exact h.armPlate.feedAll.finish

theorem holdBlock {k : Fin 2} : p.Keeps (q.holdBlock k) := by
  unfold Part.holdBlock
  split
  · exact h
  · refine h.setChannel_same ?_
    rfl

theorem releaseComposer {k : Fin 2} {n : Fin 64} : p.Keeps (q.releaseComposer k n) := by
  unfold Part.releaseComposer
  split
  · exact h.dropUse.dropCursors
  · exact h

theorem cancelExposing {n : Fin 64} : p.Keeps (q.cancelExposing n) := by
  unfold Part.cancelExposing
  exact h.changePlate.holdBlock.leaveExposing.unpinAll.releaseComposer.endClosing

theorem cancelOpen {n : Fin 64} : p.Keeps (q.cancelOpen n) := by
  unfold Part.cancelOpen
  exact Part.Keeps.unpinAll (ite h.changePlate.leaveLists.dropUse h.changePlate.leaveLists)

theorem doCancel {n : Fin 64} : p.Keeps (q.doCancel n) := by
  unfold Part.doCancel
  exact ite (ite h.cancelExposing h.cancelOpen).plateStatus.raise.finish.feed h.finish

theorem doRelease {n : Fin 64} : p.Keeps (q.doRelease n) := ite h.finish h.setPlate.plateStatus.finishFree

omit h in
theorem discardSlot {d : Discarded} (h : p.Keeps d.part) {n : Fin 512} : p.Keeps (d.slot n).part := by
  unfold Discarded.slot
  split
  · exact h.freeSlot
  · exact h

theorem discard {s : Slot → Bool} {o : Orphan → Bool} : p.Keeps (q.discard s o) := by
  unfold Part.discard
  dsimp only
  refine Part.Keeps.finish (Part.Keeps.dropOrphans ?_)
  exact foldl_keeps (fun d : Discarded => p.Keeps d.part) Discarded.slot (fun _ _ hd => discardSlot hd) _ _ h

theorem doDiscardPage : p.Keeps q.doDiscardPage := by
  unfold Part.doDiscardPage
  extract_lets f
  clear_value f
  exact ite h.finishFree h.discard

theorem doDiscardEdition : p.Keeps q.doDiscardEdition := by
  unfold Part.doDiscardEdition
  exact h.discard

theorem doClearCounters : p.Keeps q.doClearCounters := by
  unfold Part.doClearCounters
  dsimp only
  refine Part.Keeps.finishFree (Part.Keeps.forEach (Part.Keeps.headerWrite ?_) _ fun a _ => (refl a).headerWrite)
  refine h.trans ⟨⟨rfl, rfl, rfl, fun _ _ => rfl, id, id, fun b => ⟨b.1, fun k => ?_⟩,
    ReportUnit.readBounded_congr rfl rfl rfl, id, id⟩, fun n hn => ⟨hn, rfl, rfl, rfl, id⟩⟩
  show (Vector.replicate 4 0)[k] ≤ _
  rw [Fin.getElem_fin, Vector.getElem_replicate]
  exact Nat.zero_le _

end Part.Keeps

/-- The next HEAD of a stream filed (R27). -/
theorem Part.fileNextHead_evolves (p : Part) (k : Fin 4) : p.Evolves (p.fileNextHead k) := by
  unfold Part.fileNextHead
  split
  · exact Part.Evolves.refl p
  · split
    · exact (Part.Keeps.refl p).setTransit.toEvolves.trans (Part.fileHead_evolves _ _)
    · exact Part.Evolves.refl p

theorem Part.fileNextHead_currentSlots (p : Part) (k : Fin 4) (law : p.currentSlots) :
    (p.fileNextHead k).currentSlots := by
  unfold Part.fileNextHead
  split
  · exact law
  · split
    · exact Part.fileHead_currentSlots _ _ law
    · exact law

end Sys2Proof.Machine
end

