-- ==== Sys2Proof/Laws/Reports.lean ====
section
/-! SUPPORT. What an own write leaves of memory outside its bytes, and what raising a report leaves in the report unit and
in the ring. -/

namespace Sys2Proof.Machine

/-- Bytes outside a write read as before. -/
theorem Memory.readBytes_writeBytes_of_outside (m : Memory) (a b n : Nat) (bs : List Byte)
    (h : b + n ≤ a ∨ a + bs.length ≤ b) : (m.writeBytes a bs).readBytes b n = m.readBytes b n := by
  unfold Memory.readBytes
  refine List.map_congr_left fun i hi => ?_
  have := List.mem_range.mp hi
  exact Memory.read_writeBytes_of_outside m a (b + i) bs (by omega)

/-- An own write keeps the canonical form of memory. -/
theorem Part.own_wf (p : Part) (w : OwnWrite) (off : Nat) (bs : List Byte) (h : Memory.wf p.mem) :
    Memory.wf (p.own w off bs).mem :=
  Memory.wf_writeBytes p.mem _ bs h

/-- An own write leaves every byte outside it. -/
theorem Part.own_readBytes (p : Part) (w : OwnWrite) (off b n : Nat) (bs : List Byte)
    (h : b + n ≤ p.base + off ∨ p.base + off + bs.length ≤ b) :
    (p.own w off bs).mem.readBytes b n = p.mem.readBytes b n :=
  Memory.readBytes_writeBytes_of_outside p.mem _ b n bs h

/-- An own write stands in memory. -/
theorem Part.own_written (p : Part) (w : OwnWrite) (off : Nat) (bs : List Byte) (h : Memory.wf p.mem) :
    (p.own w off bs).mem.readBytes (p.base + off) bs.length = bs :=
  Memory.readBytes_writeBytes p.mem _ bs h

/-- A rewrite of status header fields touches no ring entry. -/
theorem Part.headerWrite_ring (p : Part) (g : HeaderGroup) (number : Word) :
    (p.headerWrite g).mem.readBytes (p.base + ringOffset number) 64
      = p.mem.readBytes (p.base + ringOffset number) 64 := by
  refine p.own_readBytes _ _ _ _ _ (Or.inr ?_)
  have length := p.groupBytes_length g
  have : Config.offStatusHeader + g.offset + groupSize g ≤ Config.offReportRing := by
    cases g <;> simp only [HeaderGroup.offset, groupSize, Config.offStatusHeader, Config.offReportRing] <;> omega
  unfold ringOffset
  omega

/-- A report written to the ring stands in its entry (R189, R191). -/
theorem Part.writeReport_ring (p : Part) (r : Report) (h : Memory.wf p.mem) :
    (p.writeReport r).mem.readBytes (p.base + ringOffset p.reports.written) 64 = r.bytes p.reports.written := by
  unfold Part.writeReport
  dsimp only
  have ring := Part.headerWrite_ring
    ((p.own (.report p.reports.written) (ringOffset p.reports.written) (r.bytes p.reports.written)).setReports
      { (p.own (.report p.reports.written) (ringOffset p.reports.written) (r.bytes p.reports.written)).reports with
        written := p.reports.written + 1
        recent := satInc Config.ringEntries
          (p.own (.report p.reports.written) (ringOffset p.reports.written) (r.bytes p.reports.written)).reports.recent })
    .counts p.reports.written
  refine ring.trans ?_
  have written := p.own_written (.report p.reports.written) (ringOffset p.reports.written) (r.bytes p.reports.written) h
  rwa [Report.bytes_length] at written

/-- A report raised is the one report taken more (R189, R191). -/
theorem Part.raise_tells (p : Part) (kind : ReportKind) (x : Subject) : p.tells (p.raise kind x) kind x := by
  refine ⟨rfl, fun passes up room wf => ?_⟩
  unfold Part.raise Part.takeReport
  have sweeping : p.sweeping = false := by simp [Part.sweeping, up]
  have room' : ¬ Config.ringEntries ≤ p.reports.unread := Nat.not_le.mpr room
  rw [if_neg (by simp [passes]), if_neg (by simp [sweeping]), if_neg room']
  exact p.writeReport_ring _ wf

end Sys2Proof.Machine
end

