-- ==== Sys2Proof/Laws/Spans.lean ====
section
/-! SUPPORT. What a request for a line of the open band does without reading (R59, R62), and the decoder's verdict
(R53). -/

namespace Sys2Proof.Machine

namespace OpenBand

variable {b : OpenBand} {width lineCount j : Nat} {payload : List Byte}

/-- Under the broken mark a request changes nothing (R62). -/
theorem seek_broken (broken : b.broken = true) : b.seek width lineCount payload j = b := by
  unfold seek
  rw [if_pos broken]

/-- A request for the line most recently produced changes nothing (R59). -/
theorem seek_held (line : b.line = some j) : b.seek width lineCount payload j = b := by
  unfold seek
  simp only [line, if_true, ite_self]

/-- Under the broken mark nothing is read (R62). -/
theorem reads_broken (broken : b.broken = true) : b.reads j = false := by
  simp only [reads, broken, Bool.not_true, Bool.false_and]

/-- For the line most recently produced nothing is read (R59). -/
theorem reads_held (line : b.line = some j) : b.reads j = false := by
  have before : ¬ j < j := Nat.lt_irrefl j
  have beyond : ¬ j + b.runLeft < j := by omega
  simp only [reads, line, before, beyond, false_and, decide_false, if_false, Bool.and_false]

/-- The verdict is MALFORMED just when the broken mark is set (R53, R62). -/
def MarksBad (b : OpenBand) : Prop := b.broken = b.bad.isSome

theorem MarksBad.breakBand {o : Nat} : (b.breakBand o).MarksBad := rfl

theorem MarksBad.readCode (h : b.MarksBad) {len : Nat} {c : Byte} {rest : List Byte} :
    (b.readCode width lineCount len c rest).MarksBad := by
  unfold OpenBand.readCode
  dsimp only
  repeat' split
  all_goals first
    | exact MarksBad.breakBand
    | exact h

theorem MarksBad.nextLine (h : b.MarksBad) : (b.nextLine width lineCount payload).MarksBad := by
  unfold OpenBand.nextLine
  repeat' split
  all_goals first
    | exact MarksBad.breakBand
    | exact h.readCode
    | exact h

theorem MarksBad.forward : ∀ (n : Nat) {b : OpenBand}, b.MarksBad → (b.forward width lineCount payload n).MarksBad
  | 0, _, h => h
  | n + 1, _, h => MarksBad.forward n h.nextLine

theorem MarksBad.seek (h : b.MarksBad) : (b.seek width lineCount payload j).MarksBad := by
  unfold OpenBand.seek
  repeat' split
  all_goals first
    | exact MarksBad.forward _ h
    | exact h

end OpenBand

end Sys2Proof.Machine
end

