-- ==== Sys2Proof/Tests/Slice0.lean ====
section
/-! SUPPORT. Tests: ill-formed commands, the examples the spec works out, and for each statement with hypotheses a state
and operands that meet them together (`witness_…`). -/

namespace Sys2Proof.Tests
open Sys2Proof Sys2Proof.Machine

-- One theorem after the other: side by side, the threads of the kernel evaluations take the compile's memory.
set_option Elab.async false

/-! ## Small states and blocks -/

/-- The part after its start-up sweep, nothing loaded. -/
def idle : Part := { sweep := .none }

/-- The machine with this part. -/
def up (p : Part) : State := { State.reset with part := p }

/-- A record that waits for the dispatch of its command. -/
def waits (p : Part) (r : RecordId) (copy : List Byte) : Part := p.setRecord r { stage := .taken, copy := copy }

/-- A block of these bytes, zeros after them. -/
def block (a : BitVec 40) (bs : List Byte) : WriteBlock :=
  { source := 3, addr := a, data := Vector.ofFn fun i : Fin 64 => bs.getD i.val 0
    strobes := BitVec.allOnes 64, last := true }

def readAt (a : BitVec 40) : ReadBlock := { source := 2, addr := a, last := true, returned := [] }

/-- A big-endian field. -/
def be (n v : Nat) : List Byte := (leBytes n v).reverse

/-- The first 60 bytes of a header of edition 20, zone 1, page 7, separation M. -/
def headerBody (kind seq len : Nat) (crc : Word) (fields : List Byte) : List Byte :=
  headerMarker ++ be 1 kind ++ be 1 2 ++ be 2 1 ++ be 4 seq ++ be 2 20 ++ be 1 1 ++ be 1 0 ++ be 2 7 ++ be 2 0
    ++ be 4 len ++ be 4 crc.toNat ++ padTo 32 fields

def sealed (body : List Byte) : List Byte := body ++ be 4 (crc32 body).toNat

/-- The payload and the header of a HEAD: a page of 8 by 2 pixels in one band, one region at scale 4. -/
def headPayload : List Byte := be 2 0 ++ be 2 0 ++ be 2 8 ++ be 2 2 ++ be 1 4 ++ zeros 3
def headBlock : List Byte :=
  sealed (headerBody 1 10 12 (crc32 headPayload) (be 2 8 ++ be 2 2 ++ be 2 2 ++ be 2 1 ++ be 2 1))

/-- A span list of two lines: [1, 2), then blank. -/
def bandPayload : List Byte := [2, 0, 1, 0, 1, 0, 1, 0]
def bandBlock : List Byte := sealed (headerBody 2 11 8 (crc32 bandPayload) (be 2 0))

def pageId : Identity := { edition := 20, zone := 1, page := 7, sep := 2 }
def where_ (a n : Nat) : Location := { addr := a, len := n, base := 0x200000, size := 0x10000 }
def geometry (bands : Nat) : Geometry := { width := 8, height := 2 * bands, bandHeight := 2, bandCount := bands }
def goodBand : Entry := { state := .good, loc := where_ 0x2000C0 8, storedCrc := crc32 bandPayload }

/-- A slot of the page with two bands, the second ABSENT. -/
def filling : Slot :=
  { state := .filling, id := pageId, version := 1, alloc := 1, geom := geometry 2, deadline := some 5000 }

/-- A whole slot of the page with one band. -/
def whole : Slot :=
  { state := .complete, id := pageId, version := 1, alloc := 1, geom := geometry 1
    bands := (Vector.replicate 64 {}).set 0 goodBand }

def withSlot (p : Part) (s : Slot) : Part := p.setSlot 0 s
def intakeWindow : Window := { state := .active, cls := some .intake, binding := 2, base := 0x200000, size := 0x10000 }
def plateWindow : Window := { state := .active, cls := some .plate, binding := 1, base := 0x300000, size := 0x10000 }
def intake (x : Parser) : Part := (idle.setWindow 0 intakeWindow).setParser 2 x

def header (bs : List Byte) : Header := parseHeader bs 0

/-- A parcel in transit. -/
def parcel (kind : ParcelKind) (bs payload : List Byte) (v : Verdict) : Parcel :=
  { stream := 2, kind := kind, header := header bs, hit := 16, loc := where_ 0x200040 payload.length
    computedCrc := crc32 payload, verdict := v, slotRef := some { slot := 0, alloc := 1 }, capture := payload, tick := 3 }

def orphanBand (b : Option Binding) : Orphan :=
  { id := pageId, version := 1, kind := .band, index := 0, loc := where_ 0x2000C0 8
    storedCrc := crc32 bandPayload, tick := 3, stream := 2, expiry := 30003, binding := b }

/-- A plate of 512 by 2 pixels on channel 1 with the page at (16, 0). -/
def plateCopy : PlateRecord :=
  { label := 99, channel := 1, sep := 2, width := 512, height := 2, screenSet := 0
    placements := [{ edition := 20, zone := 1, page := 7, frameW := 8, frameH := 2, x0 := 16 }] }

/-- The same as its record's bytes, with a command code. -/
def plateBytes (code : Byte) : List Byte :=
  padTo 64 ([code, 0x55, 1, 2] ++ leBytes 4 99 ++ leBytes 2 512 ++ leBytes 2 2 ++ [0, 1, 1, 1] ++ leBytes 4 0
    ++ leBytes 2 1)
    ++ leBytes 2 20 ++ [1, 0] ++ leBytes 2 7 ++ leBytes 2 0 ++ leBytes 2 8 ++ leBytes 2 2 ++ leBytes 2 16 ++ leBytes 2 0

def loadedSet : ScreenSet := { state := .loaded, w := 8, h := 8, s := 3, count := 1, table := List.replicate 256 0 }

/-- A channel with a plate window, a loaded screen set and one plate. -/
def pressed (x : Plate) : Part := ((idle.setWindow 1 plateWindow).setSet 0 loadedSet).setPlate 5 x

/-- The plate exposed, its channel's composer holding a block. -/
def exposing (h : Option InHand) : Part :=
  (pressed { state := .exposing, copy := plateCopy }).setChannel 1
    { queue := [5], state := .exposing, order := true, inHand := h }

def inHand (offset : Nat) (items : List PrepItem) : InHand := { offset := offset, plate := 5, copy := plateCopy, items := items }

/-! ## Ill-formed commands -/

theorem test_unalignedBlocks :
    (Instr.upstreamWriteBlock (block 65 [])).wellFormed = false ∧ (Instr.bodyWrite (block 1 [])).wellFormed = false
      ∧ (Instr.upstreamReadBlock (readAt 63)).wellFormed = false
      ∧ (Instr.plateWindowRead (readAt 32)).wellFormed = false := by decide +kernel

theorem test_returnedOutsideSpace :
    (Instr.upstreamReadBlock { readAt 64 with returned := [(2 ^ 40, 1)] }).wellFormed = false
      ∧ (Instr.plateWindowRead { readAt 64 with returned := [(2 ^ 40, 1)] }).wellFormed = false
      ∧ (Instr.adoptionComplete [(2 ^ 40, 1)]).wellFormed = false
      ∧ (Instr.openComplete 0 0 .band [(2 ^ 40, 1)]).wellFormed = false
      ∧ (Instr.loadComplete 0 [(2 ^ 40, 1)]).wellFormed = false := by decide +kernel

theorem test_positionOutsideQueue :
    (Instr.orphanExpiry 64).wellFormed = false ∧ (Instr.orphanExpiry 63).wellFormed = true := by decide

theorem test_wellFormedCommands :
    (Instr.upstreamWriteBlock (block 64 [])).wellFormed = true
      ∧ (Instr.upstreamReadBlock { readAt 64 with returned := [(2 ^ 40 - 1, 1)] }).wellFormed = true := by
  decide +kernel

theorem test_noWordIsACommand (n w : Nat) : decodeTableWord n w = none := rfl

/-! ## Examples of the spec -/

/-- The check value of 0.7. -/
theorem test_crcCheckValue : crc32 ("123456789".toList.map fun c => BitVec.ofNat 8 c.toNat) = 0xCBF43926 := by
  decide +kernel

/-- The span list of chapter 3, and what stands at a place of it changed. -/
def spanExample : List Byte :=
  [2, 0, 2, 0, 0x0A, 0, 5, 0, 3, 0, 0x14, 1, 3, 2, 2, 0, 1, 0, 0, 0, 0x64, 0]

theorem test_spanExample :
    spanVerdict 100 6 spanExample = .good ∧ spanVerdict 90 6 spanExample = .malformed 17
      ∧ spanVerdict 100 6 (spanExample.set 13 5) = .malformed 12
      ∧ spanVerdict 100 6 (spanExample ++ [0]) = .malformed 22
      ∧ spanVerdict 100 6 (spanExample.take 20) = .malformed 20
      ∧ spanVerdict 100 6 (spanExample.set 0 1) = .malformed 0
      ∧ spanVerdict 100 6 (spanExample.set 8 0) = .malformed 7 := by decide +kernel

/-- The decoder stands at the validator's verdict for every violation it reads (R53); it does not read past line 5. -/
theorem test_decoderVerdicts :
    let at_ := fun width bs =>
      (({ band := 0, cap := { loc := {}, crc := 0 } : OpenBand }).seek width 6 bs 5).verdict
    at_ 100 spanExample = .good ∧ at_ 90 spanExample = .malformed 17 ∧ at_ 100 (spanExample.set 13 5) = .malformed 12
      ∧ at_ 100 (spanExample ++ [0]) = .good ∧ at_ 100 (spanExample.take 20) = .malformed 20
      ∧ at_ 100 (spanExample.set 0 1) = .malformed 0 ∧ at_ 100 (spanExample.set 8 0) = .malformed 7
      ∧ at_ 100 (spanExample.set 2 0) = .malformed 1 ∧ at_ 100 (spanExample.take 13) = .malformed 13 := by
  decide +kernel

theorem test_spanLines :
    let at_ := fun j =>
      (({ band := 0, cap := { loc := {}, crc := 0 } : OpenBand }).seek 100 6 spanExample j).spans
    at_ 0 = [(10, 15), (18, 38)] ∧ at_ 1 = [(10, 15), (18, 38)] ∧ at_ 2 = [] ∧ at_ 3 = [] ∧ at_ 4 = [(0, 100)]
      ∧ at_ 5 = [] := by decide +kernel

/-- The curve of chapter 4. -/
def curveExample : Vector Nat 17 :=
  #v[0, 150, 400, 650, 900, 1200, 1100, 1400, 1700, 2000, 2300, 2600, 2900, 3200, 3500, 3800, 4095]

theorem test_transferExample :
    ([0, 1, 16, 37, 80, 85, 96, 128, 250, 254, 255] : List (Fin 256)).map (transferValue curveExample 230 160 3900)
      = [0, 160, 160, 429, 1078, 1050, 988, 1527, 3579, 3646, 4095]
      ∧ transferValue curveExample 256 160 3900 250 = 3900 ∧ transferValue curveExample 0 160 3900 128 = 160
      ∧ decreasingPoints curveExample.toList = true := by decide +kernel

theorem test_tileEntries :
    let s : ScreenSet := { w := 24, h := 24, s := 7, start := 0 }
    s.tileEntry 1000 700 = 99 ∧ s.tileEntry 1001 700 = 100 := by decide +kernel

theorem test_areas :
    areaCount 4096 = 1 ∧ areaCount 4097 = 2 ∧ areaCount 8192 = 2 ∧ areaCount 8193 = 4
      ∧ startAllowed 2 4 = false ∧ startAllowed 4 4 = true ∧ startAllowed 6 2 = true := by decide

/-- The table of R13. -/
theorem test_sequenceExamples :
    sequenceCheck (some 1000) 1000 = .inOrder ∧ sequenceCheck (some 1000) 1004 = .gap 1000 4
      ∧ sequenceCheck (some 1000) 998 = .late ∧ sequenceCheck (some 4294967295) 0 = .gap 4294967295 1
      ∧ sequenceCheck (some 0) 0x7FFFFFFF = .gap 0 0x7FFFFFFF ∧ sequenceCheck (some 0) 0x80000000 = .late
      ∧ sequenceCheck none 7 = .inOrder := by decide

theorem test_headerTests :
    headerFault headBlock (BitVec.allOnes 64) = none
      ∧ headerFault headBlock (BitVec.allOnes 64 - 1) = some .partialStrobe
      ∧ headerFault (headBlock.set 3 0) (BitVec.allOnes 64) = some .marker
      ∧ headerFault (headBlock.set 9 1) (BitVec.allOnes 64) = some .headerCrc
      ∧ headerFault (sealed (headerBody 1 10 1048576 0 [])) (BitVec.allOnes 64) = none
      ∧ headerFault (sealed (headerBody 1 10 1048577 0 [])) (BitVec.allOnes 64) = some .length := by decide +kernel

theorem test_controlLines :
    controlLine 0 = .record .header 0 ∧ controlLine 0x40 = .readCount ∧ controlLine 0x80 = .unwatched
      ∧ controlLine 0x100 = .partOwned ∧ controlLine 0x17C0 = .record (.window 15) 1
      ∧ controlLine 0x4500 = .record (.plate 5) 0 ∧ controlLine 0xA000 = .record .directory 0
      ∧ controlLine 0xA040 = .partOwned ∧ controlLine 0xDFFC0 = .partOwned ∧ controlLine 0xE0000 = .unwatched := by
  decide +kernel

/-! ## One step each -/

/-- What a command leaves. -/
def left (c : Instr) (s : State) (test : State → Bool) : Bool :=
  match exec c s with
  | .next t => test t
  | _ => false

/-- The result a command leaves in a record that waited for it, where it runs. -/
def resultOf (c : Instr) (s : State) (r : RecordId) : Option (ResultCode × Nat) :=
  match exec c s with
  | .next t => if s.part.restarting then none else some ((t.part.unit r).result.code, (t.part.unit r).result.detail.toNat)
  | _ => none

theorem test_unalignedFault :
    (match exec (.bodyWrite (block 1 [])) State.reset with
      | .fault f => f == .unalignedBlock
      | _ => false) = true := by decide +kernel

theorem test_headStartsAParcel :
    left (.upstreamWriteBlock (block 0x200000 headBlock)) (up (intake {})) (fun t =>
      let x := t.part.parsers[(2 : Fin 4)]
      x.state == .payload && x.expected == 1 && x.remaining == 12 && x.decision == .accept 16
        && x.sequence == some 11) = true := by decide +kernel

theorem test_headIsFiled :
    left (.fileHead 2) (up { idle with transit := [parcel .head headBlock headPayload .notRun] }) (fun t =>
      let x := t.part.slots[(0 : Fin 512)]
      x.state == .filling && x.id == pageId && x.alloc == 1 && x.geom.regions[(0 : Fin 16)].scale == 4
        && x.deadline == some 5000 && t.part.reports.written == 1) = true := by decide +kernel

theorem test_bandCompletesThePage :
    left (.fileBandTone 2)
      (up (withSlot { idle with transit := [parcel .band bandBlock bandPayload .good] }
        { filling with geom := geometry 1 })) (fun t =>
      t.part.slots[(0 : Fin 512)].state == .complete && t.part.transit == [] && t.part.reports.written == 1) = true := by
  decide +kernel

theorem test_armQueuesThePlate :
    left (.arm 5) (up (waits (withSlot (pressed {}) whole) (.plate 5) (plateBytes 1))) (fun t =>
      t.part.plates[(5 : Fin 64)].state == .queued && t.part.channels[(1 : Fin 2)].state == .primed
        && t.part.slots[(0 : Fin 512)].pins == 1 && (t.part.unit (.plate 5)).result.detail == 0x301) = true := by
  decide +kernel

/-- An ARM of a page of another width whose deadline of action FAIL is already reached: the status record, then
PLATE_PAGE_MISMATCH and PLATE_FAILED, then the result (R106). -/
theorem test_armFailsAtOnce :
    let record := ((plateBytes 1).set 16 1).set 72 9
    left (.arm 5) (up (waits { withSlot (pressed {}) whole with tick := 1 } (.plate 5) record)) (fun t =>
      t.part.port.own == [.status (.plate 5), .report 0, .statusHeader 1, .report 1, .statusHeader 2, .result (.plate 5)]
        && t.part.mem.read (t.part.base + Config.offReportRing) == 0x23
        && t.part.mem.read (t.part.base + Config.offReportRing + 64) == 0x28
        && (t.part.unit (.plate 5)).result.detail == 0x600) = true := by decide +kernel

/-- The hatch's byte groups at lines 0, 4 and 5 of a plate of one unresolved frame (R157). -/
theorem test_hatchGroups :
    let copy : PlateRecord := { plateCopy with height := 8, placements := [{ frameW := 512, frameH := 8 }] }
    let at_ := fun line => ((idle.compose 0 { offset := 64 * line, plate := 5, copy := copy, items := [] } []).bytes.take 8)
    at_ 0 = [0xF0, 0, 0, 0, 0xF0, 0, 0, 0] ∧ at_ 4 = [0, 0, 0, 0x0F, 0, 0, 0, 0x0F]
      ∧ at_ 5 = [0, 0, 0, 0x1E, 0, 0, 0, 0x1E] := by decide +kernel

/-! ## Witnesses: the hypotheses of the statements are met together -/

theorem witness_StepRunsTheFrontCommand :
    ({ State.reset with pending := [.tick, .restart] }).pending = .tick :: [.restart] ∧ State.reset.pending = [] :=
  ⟨rfl, rfl⟩

theorem witness_EveryCommandAnswers :
    (∃ a, blockOf (.bodyWrite (block 65 [])) = some a ∧ a.toNat % 64 ≠ 0)
      ∧ ∀ a, blockOf (.bodyWrite (block 64 [])) = some a → a.toNat % 64 = 0 :=
  ⟨⟨65, by decide +kernel⟩, fun a h => by injection h with h; subst h; decide⟩

theorem witness_EventsThatDoNotComeAbout :
    idle.slots[(511 : Fin 512)].state ≠ .filling ∧ (withSlot idle { state := .filling }).slots[(0 : Fin 512)].deadline = none
      ∧ idle.orphans.length ≤ 0 ∧ idle.plates[(63 : Fin 64)].state.armed = false
      ∧ (∀ c ∈ idle.transit, c.stream ≠ 0) ∧ (∀ o ∈ idle.orphans, o.binding = none)
      ∧ idle.channels[(1 : Fin 2)].inHand = none ∧ idle.sweep = .none ∧ idle.port.own = []
      ∧ idle.sets[(7 : Fin 8)].state ≠ .loading
      ∧ (idle.unit (.plate 63)).stage ≠ .taken ∧ (idle.unit (.plate 63)).stage ≠ .barred := by decide +kernel

theorem witness_HardReset :
    ({ State.reset with resetn := false }).resetn = false ∧ State.reset.resetn = true ∧ Instr.tick ≠ .resetAssert
      ∧ (∀ a b, Instr.tick ≠ .resetRelease a b) ∧ ∀ a, blockOf .tick = some a → a.toNat % 64 = 0 :=
  ⟨rfl, rfl, nofun, nofun, nofun⟩

theorem witness_SweepsEnd :
    let a := State.reset
    let b := up { sweep := .restart 585, reports := { written := 511 } }
    (a.resetn = true ∧ a.part.sweep = .startUp 0 ∧ a.part.reports.hold = [] ∧ a.part.reports.unread < 512
      ∧ Memory.wf a.part.mem)
    ∧ (b.resetn = true ∧ b.part.sweep = .restart 585 ∧ b.part.reports.hold = [] ∧ b.part.reports.unread < 512
      ∧ Memory.wf b.part.mem) := by decide +kernel

theorem witness_Tick : (up { tick := 4294967295 }).resetn = true := rfl

theorem witness_DirectoryTimersExpire :
    let s := up { withSlot idle filling with tick := 5000 }
    let x := up { idle with tick := 30003, orphans := [orphanBand none] }
    (s.resetn = true ∧ s.part.slots[(0 : Fin 512)].state = .filling ∧ s.part.slots[(0 : Fin 512)].deadline = some 5000
      ∧ 0 ≤ (s.part.tick - 5000).toInt)
    ∧ (x.resetn = true ∧ x.part.orphans[0]? = some (orphanBand none) ∧ (orphanBand none).binding = none
      ∧ 0 ≤ (x.part.tick - (orphanBand none).expiry).toInt) := by decide +kernel

theorem witness_ArmDeadlinePasses :
    let copy : PlateRecord := { deadline := 7 }
    let a := up ({ idle with tick := 7 }.setPlate 5 { state := .exposing, copy := copy })
    let b := up ({ idle with tick := 0x80000006 }.setPlate 63 { state := .waiting, copy := copy })
    (a.resetn = true ∧ a.part.plates[(5 : Fin 64)].state = .exposing
      ∧ a.part.plates[(5 : Fin 64)].copy.deadline ≠ 0 ∧ a.part.plates[(5 : Fin 64)].deadlinePassed = false
      ∧ 0 ≤ (a.part.tick - a.part.plates[(5 : Fin 64)].copy.deadline).toInt
      ∧ ∀ m : Fin 64, m < 5 → a.part.plates[m].copy.deadline = a.part.plates[(5 : Fin 64)].copy.deadline →
        a.part.plates[m].state.armed = false ∨ a.part.plates[m].deadlinePassed = true)
    ∧ (b.resetn = true ∧ b.part.plates[(63 : Fin 64)].state = .waiting
      ∧ b.part.plates[(63 : Fin 64)].copy.action = .fail ∧ b.part.plates[(63 : Fin 64)].copy.deadline ≠ 0
      ∧ b.part.plates[(63 : Fin 64)].deadlinePassed = false
      ∧ 0 ≤ (b.part.tick - b.part.plates[(63 : Fin 64)].copy.deadline).toInt
      ∧ (∀ m : Fin 64, m < 63 → b.part.plates[m].state.armed = false)
      ∧ ∀ k : Fin 2, b.part.channels[k].ready = []) := by decide +kernel

/-- No extent is watched in a part with no slot in use, no orphan and no parcel in transit. -/
theorem unwatched_of_empty {p : Part} (a : Nat) (slots : p.slots = Vector.replicate 512 {}) (orphans : p.orphans = [])
    (transit : p.transit = []) : p.unwatched a := by
  refine ⟨fun n => ?_, by simp [orphans], by simp [transit]⟩
  rw [slots]
  rw [show (Vector.replicate 512 ({} : Slot))[n] = {} by simp]
  rfl

/-- What holds of a FREE slot and of slot 0 holds of every slot of a part with one slot. -/
theorem everySlot {p : Part} {x : Slot} (h : p.slots = (Vector.replicate 512 {}).set 0 x) (P : Slot → Prop)
    (empty : P {}) (one : P x) (m : Fin 512) : P p.slots[m] := by
  rw [h, Fin.getElem_fin, Vector.getElem_set]
  split
  · exact one
  · rw [Vector.getElem_replicate]
    exact empty

/-- The same of the number: a slot that is no FREE slot is slot 0. -/
theorem onlySlot {p : Part} {x : Slot} (h : p.slots = (Vector.replicate 512 {}).set 0 x) {m : Fin 512}
    (u : p.slots[m].current = true) : m = 0 := by
  rw [h, Fin.getElem_fin, Vector.getElem_set] at u
  split at u
  · rename_i z
    exact Fin.ext z.symm
  · rw [Vector.getElem_replicate] at u
    exact absurd u (by decide)

theorem witness_WritesAreForwarded :
    let s := up idle
    (s.resetn = true ∧ s.part.classify 0x200000 = .memory ∧ s.part.classify 0x80 = .control .unwatched
      ∧ s.part.classify 0xFFFC0 = .control .unwatched ∧ Memory.wf s.part.mem)
    ∧ s.part.unwatched 0x200000
    ∧ (s.part.classify 0x17C0 = .control (.record (.window 15) 1)
      ∧ s.part.classify 0 = .control (.record .header 0) ∧ (s.part.unit (.window 15)).stage = .unlocked
      ∧ (s.part.unit .header).stage = .unlocked ∧ (block 0 []).data[0] = 0) :=
  ⟨by decide +kernel, unwatched_of_empty _ rfl rfl rfl, by decide +kernel⟩

theorem witness_RefusedWritesChangeNothing :
    let s := up (waits (idle.setWindow 1 plateWindow) (.filter 3) [1])
    s.resetn = true ∧ s.part.classify 0x100 = .control .partOwned ∧ s.part.classify 0xDFFC0 = .control .partOwned
      ∧ s.part.classify 0x300000 = .plate 1 ∧ s.part.classify 0x30FFC0 = .plate 1
      ∧ s.part.classify 0x20C0 = .control (.record (.filter 3) 0) ∧ (s.part.unit (.filter 3)).stage ≠ .unlocked
      ∧ State.reset.part.classify 0xA000 = .control (.record .directory 0)
      ∧ (block 0xA000 [3]).strobes.getLsbD 0 = true ∧ (block 0xA000 [3]).data[0] ≠ 0
      ∧ State.reset.part.sweep = .startUp 0 := by decide +kernel

theorem witness_CommandWriteLocksTheRecord (n : Nat) :
    let s := up { idle with sweep := .restart n }
    ((up idle).part.classify 0x1780 = .control (.record (.window 15) 0)
      ∧ ((up idle).part.unit (.window 15)).stage = .unlocked ∧ (block 0x1780 [255]).strobes.getLsbD 0 = true
      ∧ (block 0x1780 [255]).data[0] ≠ 0 ∧ Memory.wf (up idle).part.mem ∧ (up idle).part.restarting = false)
    ∧ (∀ k, (up idle).part.sweep ≠ .startUp k) ∧ (up idle).part.unwatched 0x1780
    ∧ s.resetn = true ∧ s.part.restarting = true ∧ (∀ k, s.part.sweep ≠ .startUp k) ∧ s.part.unwatched 0x1780 :=
  ⟨by decide +kernel, fun _ => nofun, unwatched_of_empty _ rfl rfl rfl, rfl, rfl, fun _ => nofun,
    unwatched_of_empty _ rfl rfl rfl⟩

theorem witness_ReadIsAnsweredFromMemory :
    let s := up (idle.setWindow 1 plateWindow)
    s.resetn = true ∧ (∀ n, s.part.classify 0x310000 ≠ .plate n) ∧ (∀ n, s.part.classify 0x2FFFC0 ≠ .plate n)
      ∧ (readAt 0x310000).returned = [] := by decide +kernel

theorem witness_TransactionIsAnswered :
    let done : Xfer := { source := 4, isRead := true, next := 128, blocks := [.data [], .refused], closed := true }
    let wait : Xfer := { source := 4, isRead := true, next := 64, blocks := [.composing 1], closed := true }
    (done.closed = true ∧ ∀ o ∈ done.blocks, ∀ c, o ≠ .composing c)
      ∧ (wait.closed = true ∧ BlockOutcome.composing 1 ∈ wait.blocks) ∧ { done with closed := false }.closed = false := by
  decide +kernel

theorem witness_ReadCountIsTaken :
    let s := up { idle with reports := { written := 1000, read := 700, recent := 512 } }
    let value := fun (bs : List Byte) => let d := (block 0x40 bs).data; d[3] ++ d[2] ++ d[1] ++ d[0]
    (s.resetn = true ∧ (block 0x40 []).strobes.extractLsb' 0 4 = BitVec.allOnes 4 ∧ s.part.reports.lost = 0
      ∧ s.part.reports.saturated = false ∧ (14#64).extractLsb' 0 4 ≠ BitVec.allOnes 4)
    ∧ s.part.unwatched (s.part.base + 0x40)
    ∧ 0 < (value (leBytes 4 1001) - s.part.reports.written).toInt
    ∧ ((value (leBytes 4 487) - s.part.reports.written).toInt ≤ 0
      ∧ s.part.reports.recent < (s.part.reports.written - value (leBytes 4 487)).toNat)
    ∧ ((value (leBytes 4 488) - s.part.reports.written).toInt ≤ 0
      ∧ (s.part.reports.written - value (leBytes 4 488)).toNat ≤ s.part.reports.recent)
    ∧ (value (leBytes 4 1000) - s.part.reports.written).toInt ≤ 0 :=
  ⟨by decide +kernel, unwatched_of_empty _ rfl rfl rfl, by decide +kernel⟩

theorem witness_LostRecordIsWritten :
    let s := up { idle with reports := { written := 512, read := 0, recent := 512, lost := 1 } }
    let d := (block 0x40 [1]).data
    let v := d[3] ++ d[2] ++ d[1] ++ d[0]
    (s.resetn = true ∧ 0 < s.part.reports.lost ∧ s.part.sweep = .none ∧ (s.part.reports.written - v).toNat < 512
      ∧ (s.part.reports.written - v).toNat ≤ s.part.reports.recent ∧ Memory.wf s.part.mem)
    ∧ s.part.unwatched (s.part.base + 0x40) :=
  ⟨by decide +kernel, unwatched_of_empty _ rfl rfl rfl⟩

theorem witness_StatusHeaderIsPosted :
    let s := up { idle with port := { own := [.report 0, .statusHeader 1, .statusHeader 2] } }
    s.resetn = true ∧ s.part.port.own = [.report 0] ++ .statusHeader 1 :: [.statusHeader 2]
      ∧ ∀ w ∈ [OwnWrite.report 0], ∀ m, w ≠ .statusHeader m :=
  ⟨rfl, rfl, fun w h m => by rw [List.mem_singleton.mp h]; nofun⟩

/-- The four cases of R189 at their limits. -/
theorem witness_ReportIsTaken :
    let r : Report := { kind := .seqGap, tick := 0, subject := .page {} }
    let held := fun n => { sweep := .restart 0, reports := { hold := List.replicate n r } : Part }
    let full := fun n => { idle with reports := { written := n } : Part }
    ({ idle with params := { suppress := 1 } }).params.suppressed r.kind.cls = true
      ∧ idle.params.suppressed r.kind.cls = false
      ∧ ((held 510).sweep ≠ .none ∧ (held 510).reports.hold.length < 511)
      ∧ ((held 511).sweep ≠ .none ∧ 511 ≤ (held 511).reports.hold.length)
      ∧ ((full 512).sweep = .none ∧ 512 ≤ (full 512).reports.unread)
      ∧ ((full 511).sweep = .none ∧ (full 511).reports.unread < 512 ∧ Memory.wf (full 511).mem) := by decide +kernel

theorem witness_SequenceCheck :
    let x : Parser := { sequence := some 1000 }
    ({} : Parser).sequence = none ∧ x.sequence = some 1000
      ∧ ((1000 : Word) - 1000).toNat = 0 ∧ (1 ≤ ((1001 : Word) - 1000).toNat ∧ ((1001 : Word) - 1000).toNat < 2 ^ 31)
      ∧ ((0x7FFFFFFF + 1000 : Word) - 1000).toNat < 2 ^ 31 ∧ 2 ^ 31 ≤ ((0x80000000 + 1000 : Word) - 1000).toNat := by
  decide

theorem witness_FilterMatches :
    let f : FilterEntry := { enable := true, pageHigh := 999, seps := 0xF }
    f.editionMask = 0 ∧ f.zoneMask = 0 ∧ { f with seps := 0 }.seps = 0 ∧ f.matches_ (header headBlock) = true := by
  decide +kernel

theorem witness_FilterDecides :
    let p := idle.setFilter 15 { enable := true, pageHigh := 7, seps := 4, action := .reject }
    let h := header headBlock
    (p.filters[(15 : Fin 16)].enable = true ∧ p.filters[(15 : Fin 16)].matches_ h = true
      ∧ ∀ j : Fin 16, j < 15 → p.filters[j].enable = false ∨ p.filters[j].matches_ h = false)
    ∧ ∀ i : Fin 16, idle.filters[i].enable = false ∨ idle.filters[i].matches_ h = false := by decide +kernel

/-- An intake write in SEEK or HUNT: a header at E and away from it; a block that is no header at E, away from E, in
HUNT. -/
theorem witness_HeaderStartsAParcel :
    let s := fun st => up (intake { state := st, expected := 1023 })
    let at_ := fun a => (a - (s .seek).part.windows[(0 : Fin 16)].base) / 64
    let good := fun w : WriteBlock => headerFault w.data.toList w.strobes
    (∀ st, (s st).resetn = true ∧ (s st).part.parsers[(2 : Fin 4)].state = st
      ∧ (s st).part.windows[(0 : Fin 16)].stream = 2 ∧ (s st).part.unwatched 0x20FFC0)
    ∧ ((s .seek).part.classify 0x20FFC0 = .intake 0 ∧ (s .seek).part.classify 0x200000 = .intake 0
      ∧ at_ 0x20FFC0 = (s .seek).part.parsers[(2 : Fin 4)].expected ∧ at_ 0x200000 = 0
      ∧ good (block 0x20FFC0 headBlock) = none ∧ good (block 0x20FFC0 []) = some .marker
      ∧ (parseHeader (block 0x20FFC0 headBlock).data.toList 1023).length ≠ 0) :=
  ⟨fun _ => ⟨rfl, rfl, rfl, unwatched_of_empty _ rfl rfl rfl⟩, by decide +kernel⟩

theorem witness_PayloadBlockIsConsumed :
    let s := up (intake { state := .payload, expected := 1, remaining := 65, header := some (header headBlock) })
    let w := block 0x200040 []
    let broken := { w with strobes := 1 }
    let away := block 0x200080 headBlock
    let at_ := fun w : WriteBlock => (w.addr.toNat - s.part.windows[(0 : Fin 16)].base) / 64
    (s.resetn = true ∧ w.addr.toNat % 64 = 0 ∧ s.part.classify w.addr.toNat = .intake 0
      ∧ s.part.windows[(0 : Fin 16)].stream = 2 ∧ s.part.parsers[(2 : Fin 4)].state = .payload
      ∧ at_ w = s.part.parsers[(2 : Fin 4)].expected ∧ w.strobes = BitVec.allOnes 64
      ∧ 64 < s.part.parsers[(2 : Fin 4)].remaining)
    ∧ s.part.unwatched w.addr.toNat
    ∧ (s.part.parsers[(2 : Fin 4)].header = some (header headBlock)
      ∧ (at_ broken = s.part.parsers[(2 : Fin 4)].expected ∧ broken.strobes ≠ BitVec.allOnes 64
        ∧ headerFault broken.data.toList broken.strobes = some .partialStrobe)
      ∧ (s.part.classify away.addr.toNat = .intake 0 ∧ at_ away ≠ s.part.parsers[(2 : Fin 4)].expected
        ∧ headerFault away.data.toList away.strobes = none ∧ (parseHeader away.data.toList 2).length ≠ 0))
    ∧ s.part.unwatched away.addr.toNat :=
  ⟨by decide +kernel, unwatched_of_empty _ rfl rfl rfl, by decide +kernel, unwatched_of_empty _ rfl rfl rfl⟩

theorem witness_ParcelFinishes :
    let x : Parser := { state := .payload, expected := 1, remaining := 64, header := some (header headBlock)
                        decision := .accept 16 }
    let s := up (intake x)
    let w := block 0x200040 headPayload
    (x.validator = none ∧ s.resetn = true ∧ w.addr.toNat % 64 = 0 ∧ s.part.classify w.addr.toNat = .intake 0
      ∧ s.part.windows[(0 : Fin 16)].stream = 2 ∧ s.part.parsers[(2 : Fin 4)].state = .payload
      ∧ (w.addr.toNat - s.part.windows[(0 : Fin 16)].base) / 64 = s.part.parsers[(2 : Fin 4)].expected
      ∧ w.strobes = BitVec.allOnes 64 ∧ 0 < s.part.parsers[(2 : Fin 4)].remaining
      ∧ s.part.parsers[(2 : Fin 4)].remaining ≤ 64
      ∧ s.part.parsers[(2 : Fin 4)].header = some (header headBlock)
      ∧ s.part.parsers[(2 : Fin 4)].fieldFault = none ∧ parcelKind? (header headBlock).kind = some .head
      ∧ s.part.parsers[(2 : Fin 4)].decision = .accept 16)
    ∧ s.part.unwatched w.addr.toNat :=
  ⟨by decide +kernel, unwatched_of_empty _ rfl rfl rfl⟩

/-- A BAND of three lines whose payload gives two: the end checks make it MALFORMED at the payload's length, in the
parser and in the parcel handed over (R11, R12). -/
theorem test_endChecksSetTheVerdict :
    let x : Parser := { state := .payload, expected := 1, remaining := 8, header := some (header bandBlock)
                        decision := .accept 16, verdict := .good, validator := some { width := 8, lineCount := 3 } }
    left (.upstreamWriteBlock (block 0x200040 bandPayload)) (up (intake x)) (fun t =>
      t.part.parsers[(2 : Fin 4)].verdict == .malformed 8
        && t.part.transit.map (fun c => c.verdict) == [.malformed 8]) = true := by decide +kernel

def headParcel : Parcel := parcel .head headBlock headPayload .notRun
def bandParcel : Parcel := parcel .band bandBlock bandPayload .good

theorem witness_HeadOpensTheLowestFreeSlot :
    let s := up (withSlot { idle with transit := [headParcel] } {})
    s.resetn = true ∧ s.part.nextIs 2 [] headParcel [] ∧ headParcel.kind = .head ∧ headParcel.validHead
      ∧ s.part.slots[(0 : Fin 512)].state = .free
      ∧ s.part.newerThanAll headParcel.header.id headParcel.header.version
      ∧ (∀ m : Fin 512, s.part.slots[m].current = true → s.part.slots[m].id ≠ headParcel.header.id)
      ∧ (∀ m : Fin 512, m < 0 → s.part.slots[m].state ≠ .free) ∧ s.part.orphans = [] ∧ s.part.noPlates := by
  refine ⟨rfl, ⟨rfl, nofun, rfl⟩, rfl, by unfold Parcel.validHead; decide +kernel, by decide +kernel,
    everySlot rfl (fun x => x.inUse = true → x.id = _ → x.version < _) nofun nofun,
    everySlot rfl (fun x => x.current = true → x.id ≠ _) nofun nofun, fun m h => absurd h (Fin.not_lt_zero m), rfl,
    by unfold Part.noPlates; decide +kernel⟩

/-- The older version of the page, current. -/
def older (pins : Nat) : Part :=
  withSlot { idle with transit := [headParcel] } { filling with version := 0, pins := pins }

/-- The same with one plate, pinned to that slot, whose placement follows the newest version. -/
def following (state : PlateState) (pins : Nat) : Part :=
  (older pins).setPlate 5
    { state := state
      copy := plateCopy
      res := (Vector.replicate 4 {}).set 0 { shown := true, pinned := true, slot := 0, alloc := 1 } }

theorem older_supersedes (pins : Nat) : (older pins).supersedes 2 [] headParcel [] 1 0 := by
  refine ⟨⟨rfl, nofun, rfl⟩, rfl, by unfold Parcel.validHead; decide +kernel,
    everySlot rfl (fun x => x.inUse = true → x.id = _ → x.version < _) nofun
      (fun _ _ => show 0 < headParcel.header.version by decide +kernel),
    rfl, show pageId = _ by decide +kernel, fun m u _ => onlySlot rfl u, rfl, fun m h => ?_, rfl⟩
  obtain rfl : m = 0 := Fin.ext (Nat.lt_one_iff.mp h)
  exact nofun

theorem witness_HeadSupersedesTheCurrentSlot :
    ((up (older 0)).resetn = true ∧ (∀ pins, (up (older pins)).part.supersedes 2 [] headParcel [] 1 0)
      ∧ (up (older 0)).part.noPlates ∧ (up (older 1)).part.noPlates)
    ∧ (∀ state pins, (following state pins).supersedes 2 [] headParcel [] 1 0)
    ∧ (∀ state, let s := up (following state 1)
      (∀ q, plateCopy.placements = [q] → s.part.follows 5 q headParcel.header.id)
      ∧ s.part.plates[(5 : Fin 64)].state = state ∧ s.part.plates[(5 : Fin 64)].deadlinePassed = false
      ∧ s.part.plates[(5 : Fin 64)].res[(0 : Fin 4)].pinned = true
      ∧ s.part.plates[(5 : Fin 64)].res[(0 : Fin 4)].slot = 0)
    ∧ (8 = headParcel.header.index ∧ 2 = headParcel.header.height
      ∧ (up (following .exposing 1)).part.params.suppress = 0 ∧ (up (following .exposing 1)).part.sweep = .none
      ∧ (up (following .exposing 1)).part.reports.unread + 3 ≤ 512 ∧ Memory.wf (up (following .exposing 1)).part.mem) := by
  refine ⟨⟨rfl, older_supersedes, by unfold Part.noPlates; decide +kernel, by unfold Part.noPlates; decide +kernel⟩,
    fun _ pins => older_supersedes pins, fun state => ⟨fun q h => ?_, rfl, rfl, rfl, rfl⟩, by decide +kernel⟩
  obtain rfl : _ = q := by injection h
  cases state <;> (unfold Part.follows; decide +kernel)

theorem witness_GoodBandIsFiled :
    let s := fun old => up (withSlot { idle with transit := [bandParcel] }
      { filling with bands := (Vector.replicate 64 {}).set 0 { state := old } })
    ∀ old ∈ [EntryState.absent, .crcBad, .malformed, .trampled, .rereadBad],
      (s old).resetn = true ∧ (s old).part.nextIs 2 [] bandParcel [] ∧ bandParcel.kind = .band
      ∧ (s old).part.versionSlot bandParcel.header.id bandParcel.header.version = some 0
      ∧ (s old).part.slots[(0 : Fin 512)].state = .filling ∧ bandParcel.header.index = (0 : Fin 64).val
      ∧ 1 < (s old).part.slots[(0 : Fin 512)].geom.bandCount
      ∧ (s old).part.slots[(0 : Fin 512)].bands[(0 : Fin 64)].state = old
      ∧ (s old).part.slots[(0 : Fin 512)].bands[(1 : Fin 64)].state ≠ .good ∧ bandParcel.mark = none
      ∧ bandParcel.computedCrc = bandParcel.header.crc
      ∧ bandParcel.slotRef = some { slot := 0, alloc := (s old).part.slots[(0 : Fin 512)].alloc }
      ∧ bandParcel.verdict = .good := by
  unfold Part.nextIs
  decide +kernel

theorem witness_BadBandIsDamage :
    let c := { bandParcel with computedCrc := 0 }
    let s := fun threshold => up (withSlot
      { idle with transit := [c], reports := { damage := Vector.replicate 4 65533 }, params := { threshold := threshold } }
      { filling with state := .stalled })
    (∀ x, (s x).resetn = true ∧ (s x).part.nextIs 2 [] c [] ∧ (s x).part.slots[(0 : Fin 512)].state = .stalled
      ∧ (s x).part.slots[(0 : Fin 512)].bands[(0 : Fin 64)].state = .absent
      ∧ (s x).part.reports.damage[(2 : Fin 4)] + 1 = 65534)
    ∧ ((s 0).part.versionSlot c.header.id c.header.version = some 0
      ∧ (s 0).part.slots[(0 : Fin 512)].id.sep = (2 : Fin 4).val
      ∧ c.header.index < (s 0).part.slots[(0 : Fin 512)].geom.bandCount ∧ c.mark = none
      ∧ c.computedCrc ≠ c.header.crc ∧ 65534 % 32767 = 0 ∧ 65534 % 32768 ≠ 0) :=
  ⟨fun _ => ⟨rfl, ⟨rfl, nofun, rfl⟩, rfl, rfl, rfl⟩, by decide +kernel⟩

theorem witness_OrphanWaitsForItsHead :
    let other := { orphanBand none with index := 63 }
    let s := up (withSlot { idle with transit := [bandParcel], orphans := List.replicate 63 other } {})
    let late := up (withSlot { idle with transit := [{ bandParcel with verdict := .notRun }] } filling)
    (s.resetn = true ∧ s.part.nextIs 2 [] bandParcel [] ∧ bandParcel.kind = .band ∧ bandParcel.header.index < 64
      ∧ bandParcel.mark = none ∧ bandParcel.computedCrc = bandParcel.header.crc
      ∧ (∀ o ∈ s.part.orphans, ¬ (o.id = bandParcel.header.id ∧ o.version = bandParcel.header.version
        ∧ o.kind = bandParcel.kind ∧ o.index = bandParcel.header.index))
      ∧ s.part.orphans.length < 64)
    ∧ s.part.newerThanAll bandParcel.header.id bandParcel.header.version
    ∧ (late.part.versionSlot bandParcel.header.id bandParcel.header.version = some 0
      ∧ bandParcel.header.index < late.part.slots[(0 : Fin 512)].geom.bandCount
      ∧ bandParcel.slotRef ≠ some { slot := 0, alloc := 2 }) :=
  ⟨by unfold Part.nextIs; decide +kernel,
    everySlot rfl (fun x => x.inUse = true → x.id = _ → x.version < _) nofun nofun, by decide +kernel⟩

theorem witness_AdoptionOfABand :
    let b : Binding := { ref := { slot := 0, alloc := 1 } }
    let o := fun begun => orphanBand (some { b with begun := begun })
    let s := fun begun => up (withSlot { idle with orphans := [orphanBand none, o begun]
                                                   mem := Memory.writeBytes [] 0x2000C0 bandPayload } filling)
    ((s false).resetn = true ∧ (s false).part.orphans = [orphanBand none] ++ o false :: []
      ∧ (o false).kind = .band ∧ (o false).index < (s false).part.slots[(0 : Fin 512)].geom.bandCount)
    ∧ ((s true).part.orphans = [orphanBand none] ++ o true :: [] ∧ (orphanBand none).inFlight = false
      ∧ (s true).part.slots[(0 : Fin 512)].state = .filling
      ∧ (s true).part.slots[(0 : Fin 512)].bands[(0 : Fin 64)].state = .absent
      ∧ (s true).part.slots[(0 : Fin 512)].bands[(1 : Fin 64)].state ≠ .good
      ∧ 1 < (s true).part.slots[(0 : Fin 512)].geom.bandCount
      ∧ spanVerdict (s true).part.slots[(0 : Fin 512)].geom.width
          ((s true).part.slots[(0 : Fin 512)].geom.lineCount 0) ((s true).part.mem.payload [] (o true).loc) = .good) := by
  decide +kernel

theorem witness_TrampledBandIsNotGood :
    let p := withSlot (pressed { state := .queued, copy := plateCopy
                                 res := (Vector.replicate 4 {}).set 0 { shown := true, pinned := true, slot := 0, alloc := 1 } })
      { whole with pins := 1 }
    let s := up p
    (s.resetn = true ∧ s.part.classify 0x2000C0 = .memory ∧ (p.setWindow 0 intakeWindow).classify 0x2000C0 = .intake 0
      ∧ s.part.slots[(0 : Fin 512)].inUse = true ∧ 0 < s.part.slots[(0 : Fin 512)].geom.bandCount
      ∧ s.part.slots[(0 : Fin 512)].bands[(0 : Fin 64)].state = .good
      ∧ s.part.slots[(0 : Fin 512)].bands[(0 : Fin 64)].loc.meets 0x2000C0 = true)
    ∧ (s.part.slots[(0 : Fin 512)].metEntries 0x2000C0 = [.band 0] ∧ s.part.slots[(0 : Fin 512)].allGood
      ∧ s.part.plates[(5 : Fin 64)].state = .queued ∧ s.part.plates[(5 : Fin 64)].copy.hold = .hold
      ∧ s.part.plates[(5 : Fin 64)].forced = false ∧ s.part.plates[(5 : Fin 64)].deadlinePassed = false
      ∧ 0 < s.part.plates[(5 : Fin 64)].copy.placements.length
      ∧ s.part.plates[(5 : Fin 64)].res[(0 : Fin 4)].pinned = true
      ∧ s.part.plates[(5 : Fin 64)].res[(0 : Fin 4)].slot = 0
      ∧ ∀ k : Fin 2, 5 ∉ s.part.channels[k].ready)
    ∧ ∀ j : Fin 512, j ≠ 0 → s.part.slots[j].metEntries 0x2000C0 = [] := by
  intro p s
  refine ⟨by decide +kernel, by unfold Slot.allGood; decide +kernel, fun j h => ?_⟩
  cases e : s.part.slots[j].current
  · exact everySlot (p := s.part) rfl (fun x => x.current = false → x.metEntries 0x2000C0 = []) (fun _ => rfl) nofun j e
  · exact absurd (onlySlot rfl e) h

theorem witness_IdleReadIsCounted :
    let s := fun c => up ((pressed { copy := plateCopy }).setChannel 1 c)
    (∀ c, (s c).resetn = true ∧ (s c).part.channels[(1 : Fin 2)] = c)
    ∧ (({} : Channel).state = .idle ∧ ({} : Channel).inHand = none ∧ (0x300000 : BitVec 40).toNat % 64 = 0
      ∧ 0 < (s {}).part.plates[(5 : Fin 64)].copy.height * ((s {}).part.plates[(5 : Fin 64)].copy.width / 8))
    ∧ (let c : Channel := { state := .draining, queue := [5] }; c.inHand = none ∧ c.queue = 5 :: [])
    ∧ (s {}).part.readsPlate 0x300000 1 0 ∧ (s {}).part.readsPlate 0x30FFC0 1 0xFFC0
    ∧ (s { state := .draining }).part.readsPlate 0x300040 1 64 :=
  ⟨fun _ => ⟨rfl, rfl⟩, by decide +kernel, ⟨rfl, rfl⟩, ⟨1, by decide +kernel⟩, ⟨1, by decide +kernel⟩,
    ⟨1, by decide +kernel⟩⟩

theorem witness_FirstReadStartsThePlate :
    let s := fun c => up ((pressed { state := .queued, copy := plateCopy }).setChannel 1 c)
    (∀ c, (s c).resetn = true ∧ (s c).part.channels[(1 : Fin 2)] = c)
    ∧ (let r := (s {}).part.plates[(5 : Fin 64)].copy; 64 < r.height * (r.width / 8) ∧ r.height * (r.width / 8) ≤ 128)
    ∧ (let c : Channel := { queue := [5], state := .primed }; c.inHand = none ∧ c.queue = 5 :: [])
    ∧ (let c : Channel := { queue := [5], state := .exposing, beyondZero := true }
      c.inHand = none ∧ c.queue = 5 :: [] ∧ c.beyondZero = true)
    ∧ (s { queue := [5], state := .primed }).part.readsPlate 0x300040 1 64
    ∧ (s { queue := [5], state := .exposing }).part.readsPlate 0x300080 1 128
    ∧ (s { queue := [5], state := .exposing, beyondZero := true }).part.readsPlate 0x300000 1 0 :=
  ⟨fun _ => ⟨rfl, rfl⟩, by decide +kernel, ⟨rfl, rfl⟩, ⟨rfl, rfl, rfl⟩, ⟨1, by decide +kernel⟩, ⟨1, by decide +kernel⟩,
    ⟨1, by decide +kernel⟩⟩

def bandItem : PrepItem := { placement := 0, line := 0, low := 0, high := 8, band := 0, spans := .waiting, regions := [] }
def bandOpen : Opening := { entry := .band 0, cap := { loc := where_ 0x2000C0 8, crc := crc32 bandPayload } }
def bandCursor : Cursor :=
  { plate := 5, placement := 0, ref := { slot := 0, alloc := 1 }, version := 1, geom := geometry 1, opening := some bandOpen }

theorem witness_OpenEndsWell :
    let c : Channel := { queue := [5], state := .exposing, inHand := some (inHand 0 [bandItem]), cursors := [bandCursor] }
    let s := up ({ pressed { state := .exposing, copy := plateCopy } with
      mem := Memory.writeBytes [] 0x2000C0 bandPayload }.setChannel 1 c)
    s.resetn = true
      ∧ s.part.channels[(1 : Fin 2)].findOpen 0 .band = some (inHand 0 [bandItem], bandCursor, bandItem, bandOpen)
      ∧ bandOpen.interrupted = false ∧ crc32 (s.part.mem.payload [] bandOpen.cap.loc) = bandOpen.cap.crc := by
  decide +kernel

theorem witness_BlockIsComposed :
    let h := inHand 0 []
    let s := up (exposing (some h))
    s.resetn = true ∧ s.part.channels[(1 : Fin 2)].inHand = some h ∧ h.prepared = true ∧ h.live = true
      ∧ h.offset + 64 ≠ h.copy.height * (h.copy.width / 8) := by decide +kernel

/-- A page of 8 by 2 with one region of scale 4 over it, as a cursor sees it, and its sample. -/
def toneCursor : Cursor :=
  { bandCursor with
    opening := none
    geom := { geometry 1 with
      toneCount := 1, regions := (Vector.replicate 16 {}).set 0 { x := 0, y := 0, w := 8, h := 2, scale := 4 } } }

def toneNeed (a : Answer Samples) : RegionNeed := { region := 0, answer := a }

def toneItem (spans : Answer (List (Nat × Nat))) (a : Answer Samples) : PrepItem :=
  { bandItem with spans := spans, regions := [toneNeed a] }

theorem witness_BlockPacksItsPixels :
    let q := plateCopy.numberedPlacements.find? fun q => q.2.holds 23 1
    let samples : Answer Samples := .data { firstCol := 1, bytes := [200] }
    let source := fun st spans need rst => ({ cursor := toneCursor, item := toneItem spans need, band := st
                                              regions := [(toneNeed need, rst)] } : Source)
    let it := toneItem (.found .absent) samples
    let h := inHand 0 [it]
    let p := (exposing (some h)).setChannel 1 { queue := [5], state := .exposing, inHand := some h, cursors := [toneCursor] }
    (∀ q ∈ plateCopy.numberedPlacements, q.2.holds 15 0 = false ∧ q.2.holds 24 1 = false)
    ∧ (q.map fun q => q.1) = some 0
    ∧ (∀ st spans need rst, [source st spans need rst].find? (fun a => a.cursor.placement == 0)
        = some (source st spans need rst)
      ∧ (source st spans need rst).regions.Pairwise (fun u v => u.1.region < v.1.region))
    ∧ (let d := toneCursor.geom.regions[(0 : Fin 16)]
      d.x ≤ 7 ∧ 7 < d.x + d.w ∧ d.y ≤ it.line ∧ it.line < d.y + d.h ∧ (7 - d.x) / d.scale - 1 = 0)
    ∧ (source .good (.data [(1, 2)]) samples .good).band = .good ∧ (source .good .broken samples .good).item.spans = .broken
    ∧ (source .absent .waiting (.found .absent) .absent).band ≠ .good
    ∧ (23 + 1) % 32 ≥ 4 ∧ (16 + 16) % 32 < 4
    ∧ ({ h with live := false }.stage = .preparation ∧ (withSlot p whole).allocated toneCursor.ref = true)
    ∧ (h.live = true ∧ h.items.find? (fun y => y.placement == it.placement) = some it
      ∧ p.channels[(1 : Fin 2)].cursors.find? (fun y => y.placement == it.placement) = some toneCursor
      ∧ it.spans = .found .absent ∧ (it.regions.map fun r => r.region).Nodup) := by
  refine ⟨by decide +kernel, by decide +kernel, fun _ _ _ _ => ⟨rfl, List.pairwise_singleton _ _⟩, by decide +kernel⟩

theorem witness_FinalBlockEndsThePlate :
    let h := inHand 64 []
    let x : Plate := { state := .exposing, copy := plateCopy
                       res := (Vector.replicate 4 {}).set 0 { shown := true, pinned := true, slot := 0, alloc := 1 } }
    let s := fun st pins => up (withSlot ((exposing (some h)).setPlate 5 x) { whole with state := st, pins := pins })
    let old := s .superseded 1
    (old.resetn = true ∧ old.part.channels[(1 : Fin 2)].inHand = some h ∧ h.prepared = true ∧ h.live = true
      ∧ h.offset + 64 = h.copy.height * (h.copy.width / 8) ∧ old.part.channels[(1 : Fin 2)].queue = [h.plate]
      ∧ old.part.channels[(1 : Fin 2)].ready = [] ∧ (∀ n : Fin 16, old.part.windows[n].state ≠ .closing)
      ∧ old.part.plates[(5 : Fin 64)].res[(0 : Fin 4)].pinned = true
      ∧ old.part.plates[(5 : Fin 64)].res[(0 : Fin 4)].slot = 0
      ∧ ∀ j : Fin 4, j ≠ 0 → old.part.plates[(5 : Fin 64)].res[j].pinned = false)
    ∧ (old.part.slots[(0 : Fin 512)].state = .superseded ∧ old.part.slots[(0 : Fin 512)].pins ≤ 1)
    ∧ ¬ ((s .superseded 2).part.slots[(0 : Fin 512)].pins ≤ 1)
    ∧ (s .complete 1).part.slots[(0 : Fin 512)].state ≠ .superseded := by
  decide +kernel

/-- The header record with gap_ms, orphan_ms and the default action. -/
def paramBytes (gap orphan : Nat) (action : Byte) : List Byte :=
  [1, 9, 0, 0] ++ leBytes 4 gap ++ leBytes 4 orphan ++ leBytes 2 0 ++ [action, 0, 0]

theorem witness_SetParams :
    (∀ x ∈ [(99, 999, 1), (100, 1000, 2), (600000, 600000, 1), (600001, 600001, 2), (0, 0, 0), (0, 0, 3)],
      (up (waits idle .header (paramBytes x.1 x.2.1 x.2.2))).runs .header (some .setParams))
    ∧ (parseParams (paramBytes 99 999 1)).action = FilterAction.accept.code
    ∧ (parseParams (paramBytes 99 999 2)).action = FilterAction.reject.code
    ∧ (parseParams (paramBytes 0 0 3)).action ≠ 1 ∧ (parseParams (paramBytes 0 0 0)).action ≠ 2 := by
  unfold State.runs
  decide +kernel

/-- A window record. -/
def windowBytes (code cls binding : Byte) (base size : Nat) : List Byte :=
  [code, 9, cls, binding, 0, 0, 0, 0] ++ leBytes 8 base ++ leBytes 8 size

theorem witness_WindowLoad :
    let a := up (waits (idle.setPlate 0 { state := .ready, copy := { plateCopy with width := 32768, height := 16 } })
      (.window 3) (windowBytes 1 2 1 0x100000 65536))
    let b := up (waits (idle.setWindow 1 plateWindow) (.window 0) (windowBytes 1 1 3 0x310000 268435456))
    let f := parseWindow (b.part.copyOf (.window 0))
    (a.runs (.window 3) (some .windowLoad) ∧ (parseWindow (a.part.copyOf (.window 3))).cls = 2
      ∧ 0 + 1048576 ≤ (parseWindow (a.part.copyOf (.window 3))).base
      ∧ ∀ m : Fin 64, a.part.plates[m].state = .ready →
        a.part.plates[m].copy.width / 8 * a.part.plates[m].copy.height
          ≤ (parseWindow (a.part.copyOf (.window 3))).size)
    ∧ (b.runs (.window 0) (some .windowLoad) ∧ b.part.windows[(0 : Fin 16)].state = .inactive
      ∧ (f.cls = 1 ∧ f.binding < 4) ∧ f.base % 4096 = 0 ∧ f.size % 4096 = 0 ∧ 65536 ≤ f.size ∧ f.size ≤ 268435456
      ∧ f.base + f.size ≤ 2 ^ 40 ∧ b.part.base + 1048576 ≤ f.base
      ∧ ∀ m : Fin 16, b.part.windows[m].state ≠ .inactive →
        b.part.windows[m].base + b.part.windows[m].size ≤ f.base
        ∧ ¬ (b.part.windows[m].cls = some .intake ∧ b.part.windows[m].binding = f.binding))
    ∧ (up (waits (idle.setWindow 1 plateWindow) (.window 1) (windowBytes 1 1 3 0 0))).runs (.window 1) (some .windowLoad)
    ∧ (let g := parseWindow (windowBytes 1 2 2 0 0); ¬ (g.cls = 1 ∧ g.binding < 4) ∧ ¬ (g.cls = 2 ∧ g.binding < 2)) := by
  unfold State.runs
  decide +kernel

/-- A record for each of the checks 3 to 9, at the boundary of the check, its parsed fields as written. -/
theorem witness_WindowLoadRefusals :
    let plate : Plate := { state := .ready, copy := { plateCopy with width := 32768, height := 17, channel := 0 } }
    let s := fun bs => up (waits ((idle.setWindow 1 plateWindow).setPlate 9 plate) (.window 0) bs)
    let cases : List (Byte × Byte × Nat × Nat × ResultCode × Nat) :=
      [(2, 1, 0x200800, 65536, .badParam, 2), (2, 1, 0x200000, 69631, .badParam, 3), (2, 1, 0x200000, 61440, .badParam, 3),
       (2, 1, 0x200000, 268439552, .badParam, 3), (1, 0, 0xFFFFFF1000, 65536, .badParam, 4),
       (1, 0, 0xFF000, 65536, .overlap, 16), (1, 0, 0x2F1000, 65536, .overlap, 1), (1, 0, 0x30F000, 65536, .overlap, 1),
       (2, 1, 0x310000, 65536, .inUse, 33), (2, 0, 0x310000, 65536, .badParam, 73)]
    (s []).part.windows[(0 : Fin 16)].state = .inactive
    ∧ ∀ x ∈ cases,
      let bs := windowBytes 1 x.1 x.2.1 x.2.2.1 x.2.2.2.1
      (s bs).runs (.window 0) (some .windowLoad)
        ∧ parseWindow bs = { cls := x.1.toNat, binding := x.2.1.toNat, base := x.2.2.1, size := x.2.2.2.1 }
        ∧ resultOf (.windowLoad 0) (s bs) (.window 0) = some x.2.2.2.2 := by
  unfold State.runs
  decide +kernel

theorem witness_WindowClose :
    let s := fun (p : Part) => up (waits p (.window 1) (windowBytes 2 0 0 0 0))
    let plate := idle.setWindow 1 plateWindow
    let feeding := plate.setChannel 1 { state := .exposing, queue := [5] }
    let stream := idle.setWindow 1 intakeWindow
    ((s idle).runs (.window 1) (some .windowClose) ∧ idle.windows[(1 : Fin 16)].state = .inactive)
    ∧ ((s plate).runs (.window 1) (some .windowClose) ∧ plate.windows[(1 : Fin 16)].state = .active
      ∧ plate.channels[plate.windows[(1 : Fin 16)].channel].state ≠ .exposing)
    ∧ ((s feeding).runs (.window 1) (some .windowClose)
      ∧ feeding.channels[feeding.windows[(1 : Fin 16)].channel].state = .exposing)
    ∧ ((s stream).runs (.window 1) (some .windowClose) ∧ stream.windows[(1 : Fin 16)].cls = some .intake
      ∧ stream.parsers[stream.windows[(1 : Fin 16)].stream].state ≠ .payload) := by
  unfold State.runs
  decide +kernel

/-- A filter record. -/
def filterBytes (code action : Byte) (low high : Nat) : List Byte :=
  [code, 9, 1, action, 0, 0, 0, 0, 0, 0] ++ leBytes 2 low ++ leBytes 2 high ++ [15]

theorem witness_FilterCommands :
    (∀ x ∈ [(0, 999, 1), (1, 1000, 1), (2, 1, 1), (1, 999, 0), (1, 999, 1), (999, 999, 2)],
      (up (waits idle (.filter 15) (filterBytes 1 x.2.2 x.1 x.2.1))).runs (.filter 15) (some .filterLoad))
    ∧ (parseFilter (filterBytes 1 1 1 999)).action = FilterAction.accept.code
    ∧ (parseFilter (filterBytes 1 2 999 999)).action = FilterAction.reject.code
    ∧ (parseFilter (filterBytes 1 0 1 999)).action ≠ 1
    ∧ (parseFilter (filterBytes 1 1 2 1)).pageHigh < (parseFilter (filterBytes 1 1 2 1)).pageLow
    ∧ (up (waits idle (.filter 0) [2])).runs (.filter 0) (some .filterDisable) := by
  unfold State.runs
  decide +kernel

theorem witness_UnknownAndBusy :
    let s := up { waits (waits idle .header [1]) .directory [1] with sweep := .restart 0 }
    let after := up ((waits (waits idle (.plate 0) [1]) (.filter 0) [3]).setStage (.plate 0) .barred)
    ((up (waits idle (.filter 0) [3])).runs (.filter 0) none)
      ∧ (s.part.sweep = .restart 0 ∧ s.bars .header ∧ s.part.awaits .header (some .setParams) = true
        ∧ s.part.awaits .directory (some .discardPage) = true)
      ∧ (after.bars (.plate 0) ∧ after.part.sweep = .none ∧ after.part.awaits (.plate 0) (some .arm) = true)
      ∧ ((idle.setStage .header .busy).unit .header).stage = .busy ∧ (idle.setStage .header .busy).sweep = .none
      ∧ ({ idle.setStage .header .busy with sweep := .restart 585 }).sweep = .restart 585 :=
  ⟨by unfold State.runs; decide +kernel, ⟨rfl, .inl ⟨0, rfl⟩, by decide +kernel⟩,
    ⟨.inr (by decide +kernel), rfl, by decide +kernel⟩, by decide +kernel⟩

theorem witness_Restart :
    let a := up (waits (waits ((intake { state := .payload, expected := 3 }).setChannel 1 { state := .draining })
      .header [2]) (.plate 63) [1])
    let b := up (waits (idle.setChannel 1 { state := .exposing }) .header [2])
    (a.runs .header (some .restart)
      ∧ (∀ k : Fin 2, a.part.channels[k].state ≠ .exposing ∧ a.part.channels[k].inHand = none)
      ∧ a.part.channels[(1 : Fin 2)].state ≠ .idle ∧ a.part.parsers[(2 : Fin 4)].state = .payload ∧ a.part.parsers[(3 : Fin 4)].state ≠ .payload
      ∧ (a.part.unit (.plate 63)).stage = .taken ∧ (a.part.unit (.plate 62)).stage ≠ .taken ∧ Memory.wf a.part.mem)
    ∧ (b.runs .header (some .restart) ∧ b.part.channels[(1 : Fin 2)].state = .exposing) := by
  unfold State.runs
  decide +kernel

/-- An accepted RESTART of a part with channel 1 PRIMED: four rewrites for the streams, one for the channel, whose fields
show IDLE, no head plate and no reads (R24, R144, R145). -/
theorem test_restartShowsIdle :
    let p := (pressed { state := .queued }).setChannel 1 { state := .primed, queue := [5], idleReads := 3 }
    left .restart (up (waits p .header [2])) (fun t =>
      t.part.channels[(1 : Fin 2)] == {} && t.part.port.own == List.replicate 5 (.statusHeader 0)
        && t.part.mem.readBytes (t.part.base + 0x1F0) 16 == [0, 0xFF] ++ zeros 14) = true := by decide +kernel

/-- A screen set record of a tile at area `start` with shift `s`, clamps, source and the points of a curve. -/
def setBytes (start : Byte) (w h s low high source : Nat) (points : List Nat) : List Byte :=
  [1, 9, start, 0] ++ leBytes 2 w ++ leBytes 2 h ++ leBytes 2 s ++ leBytes 2 257 ++ leBytes 2 low ++ leBytes 2 high
    ++ leBytes 8 source ++ padTo 34 (points.flatMap (leBytes 2))

/-- A part in which set 0 owns area 0 and set 7 area 6; set 0's use count and the record of its command. -/
def screenPart (use : Nat) (bs : List Byte) : Part :=
  waits ({ idle with owners := (Vector.replicate 8 none).set 0 (some 0) |>.set 6 (some 7) }.setSet 0 { use := use })
    (.screenSet 0) bs

/-- A record for each check of R90, at the boundary of the check, with its result. -/
theorem witness_ScreenSetLoad :
    let s := fun use bs => up (screenPart use bs)
    let last := List.replicate 16 4095 ++ [4096]
    let cases : List (Nat × List Byte × ResultCode × Nat) :=
      [(1, setBytes 0 8 8 0 0 0 0 [], .inUse, 1), (0, setBytes 0 8 8 0 0 0 0 [4096], .badParam, 0),
       (0, setBytes 0 8 8 0 0 0 0 last, .badParam, 16), (0, setBytes 0 8 8 0 4096 0 0 [], .badParam, 17),
       (0, setBytes 0 8 8 0 4095 4096 0 [], .badParam, 18), (0, setBytes 0 8 8 0 1 0 0 [], .badParam, 19),
       (0, setBytes 0 7 8 0 0 0 0 [], .badParam, 20), (0, setBytes 0 129 8 0 0 0 0 [], .badParam, 20),
       (0, setBytes 0 128 7 0 0 0 0 [], .badParam, 21), (0, setBytes 0 8 129 0 0 0 0 [], .badParam, 21),
       (0, setBytes 0 8 8 8 0 0 0 [], .badParam, 22), (0, setBytes 8 8 8 7 0 0 0 [], .badParam, 23),
       (0, setBytes 5 128 33 0 0 0 0 [], .badParam, 24), (0, setBytes 0 8 8 0 0 0 32 [], .badParam, 25),
       (0, setBytes 0 8 8 0 0 0 0xFFFFFFFFC0 [], .badParam, 25), (0, setBytes 4 128 128 0 0 0 0 [], .areaTaken, 1798),
       (0, setBytes 6 8 8 0 0 0 0 [], .areaTaken, 1798)]
    (∀ x ∈ cases, (s x.1 x.2.1).runs (.screenSet 0) (some .setLoad)
      ∧ resultOf (.screenSetLoad 0) (s x.1 x.2.1) (.screenSet 0) = some x.2.2)
    ∧ (∀ x ∈ [(7, 8, 8), (2, 128, 64), (0, 128, 128)],
      let bs := setBytes x.1 x.2.1 x.2.2 7 0 4095 0xFFFFFF8000 [4095, 0]
      (s 0 bs).runs (.screenSet 0) (some .setLoad)
        ∧ left (.screenSetLoad 0) (s 0 bs) (fun t => t.part.sets[(0 : Fin 8)].state == .loading)) := by
  unfold State.runs
  decide +kernel

theorem witness_LoadCompletes :
    let s := up (idle.setSet 7 { state := .loading, w := 8, h := 8, count := 1 })
    s.resetn = true ∧ s.part.sets[(7 : Fin 8)].state = .loading ∧ s.part.sweep = .none ∧ TileMemory.wf s.tiles := by
  decide +kernel

theorem witness_Unload :
    let s := fun (x : ScreenSet) => up (waits (idle.setSet 0 x) (.screenSet 0) [2])
    (s { loadedSet with use := 1 }).runs (.screenSet 0) (some .setUnload)
      ∧ (s loadedSet).runs (.screenSet 0) (some .setUnload) ∧ (s {}).runs (.screenSet 0) (some .setUnload) := by
  unfold State.runs
  decide +kernel

theorem witness_ArmWaits :
    let s := up (waits (withSlot (pressed {}) {}) (.plate 5) (plateBytes 1))
    let f := parsePlate (s.part.copyOf (.plate 5))
    (s.runs (.plate 5) (some .arm) ∧ s.part.armable 5 f .hold .fail ∧ f.deadline = 0
      ∧ ∀ k : Fin 2, s.part.channels[k].ready = [])
    ∧ (∀ q ∈ f.placements, ∀ m : Fin 512, s.part.slots[m].inUse = true →
        s.part.slots[m].id ≠ { edition := q.edition, zone := q.zone, page := q.page, sep := f.sep })
    ∧ (up (waits (pressed { state := .waiting }) (.plate 5) (plateBytes 1))).runs (.plate 5) (some .arm) :=
  ⟨by unfold State.runs Part.armable; decide +kernel,
    fun _ _ => everySlot rfl (fun x => x.inUse = true → x.id ≠ _) nofun nofun,
    by unfold State.runs; decide +kernel⟩

/-- A plate record with some bytes replaced, for each of the checks 2 to 14 of R105, at the boundary of the check. -/
theorem witness_ArmRefusals :
    let s := fun bs => up (waits ((pressed {}).setSet 7 {}) (.plate 5) bs)
    let record := plateBytes 1 ++ zeros 16 ++ (plateBytes 1).drop 64
    let with_ := fun (changes : List (Nat × Byte)) => changes.foldl (fun bs c => bs.set c.1 c.2) record
    let cases : List (List (Nat × Byte) × ResultCode × Nat) :=
      [([(15, 0)], .badParam, 1), ([(15, 5)], .badParam, 1), ([(2, 2)], .badParam, 2), ([(3, 4)], .badParam, 3),
       ([(9, 0)], .badParam, 4), ([(8, 1)], .badParam, 4), ([(9, 130)], .badParam, 4), ([(10, 0)], .badParam, 5),
       ([(10, 1), (11, 128)], .badParam, 5), ([(12, 8)], .badParam, 6), ([(13, 0)], .badParam, 7),
       ([(14, 3)], .badParam, 8), ([(20, 2)], .badParam, 9), ([(68, 0)], .badParam, 16), ([(74, 3)], .badParam, 16),
       ([(15, 2), (108, 17), (99, 2)], .badParam, 17), ([(15, 2), (108, 23)], .overlap, 256),
       ([(11, 16)], .badParam, 10), ([(12, 7)], .noScreen, 0)]
    (∀ x ∈ cases, (s (with_ x.1)).runs (.plate 5) (some .arm)
      ∧ resultOf (.arm 5) (s (with_ x.1)) (.plate 5) = some x.2)
    ∧ resultOf (.arm 5) (s (with_ [(15, 2), (108, 24)])) (.plate 5) = some (.done, 256) := by
  unfold State.runs
  decide +kernel

theorem witness_ArmQueuesAWholePlate :
    let s := up (waits (withSlot (pressed {}) whole) (.plate 5) (plateBytes 1))
    let f := parsePlate (s.part.copyOf (.plate 5))
    (s.runs (.plate 5) (some .arm) ∧ s.part.armable 5 f .hold .fail ∧ f.deadline = 0
      ∧ f.placements = [{ edition := 20, zone := 1, rotation := 0, page := 7, version := 0, frameW := 8, frameH := 2
                          x0 := 16, y0 := 0 }]
      ∧ s.part.slots[(0 : Fin 512)].current = true
      ∧ s.part.slots[(0 : Fin 512)].id = { edition := 20, zone := 1, page := 7, sep := f.sep }
      ∧ s.part.slots[(0 : Fin 512)].geom.width = 8 ∧ s.part.slots[(0 : Fin 512)].geom.height = 2
      ∧ (∀ i : Fin 64, i.val < s.part.slots[(0 : Fin 512)].geom.bandCount →
        s.part.slots[(0 : Fin 512)].bands[i].state = .good)
      ∧ (∀ r : Fin 16, r.val < s.part.slots[(0 : Fin 512)].geom.toneCount →
        s.part.slots[(0 : Fin 512)].tones[r].state = .good)
      ∧ (∀ j : Fin 2, s.part.channels[j].ready = [] ∧ s.part.channels[j].queue = []
        ∧ s.part.channels[j].state = .idle))
    ∧ ∀ j : Fin 512, s.part.slots[j].current = true → s.part.slots[j].id = s.part.slots[(0 : Fin 512)].id → j = 0 :=
  ⟨by unfold State.runs Part.armable; decide +kernel, fun _ u _ => onlySlot rfl u⟩

theorem witness_Cancel :
    let s := fun (p : Part) => up (waits p (.plate 5) [2])
    let held : Resolution := { shown := true, pinned := true, slot := 0, alloc := 1, version := 1 }
    let waiting := withSlot (pressed { state := .waiting, copy := plateCopy
                                       res := (Vector.replicate 4 {}).set 0 held }) { whole with pins := 1 }
    ((s (pressed {})).runs (.plate 5) (some .cancel) ∧ (pressed {}).plates[(5 : Fin 64)].state.armed = false)
    ∧ ((s waiting).runs (.plate 5) (some .cancel) ∧ waiting.plates[(5 : Fin 64)].state = .waiting
      ∧ waiting.channels[(1 : Fin 2)].ready = [] ∧ 5 ∉ waiting.channels[(1 : Fin 2)].queue
      ∧ waiting.channels[(1 : Fin 2)].state = .idle ∧ waiting.channels[(1 : Fin 2)].queue = []
      ∧ waiting.plates[(5 : Fin 64)].res[(0 : Fin 4)].pinned = true
      ∧ ¬ (waiting.slots[(0 : Fin 512)].state = .superseded ∧ waiting.slots[(0 : Fin 512)].pins ≤ 1))
    ∧ ((s (exposing none)).runs (.plate 5) (some .cancel) ∧ (exposing none).plates[(5 : Fin 64)].state = .exposing
      ∧ (exposing none).channels[(1 : Fin 2)].ready = []
      ∧ ∀ w : Fin 16, (exposing none).windows[w].state ≠ .closing) := by
  unfold State.runs
  decide +kernel

/-- A block in hand whose band is fetched, of a SUPERSEDED page that the CANCEL frees: answered as without the CANCEL
(R135, R138). -/
theorem test_cancelKeepsTheSnapshot :
    let h := inHand 0 [{ bandItem with spans := .data [(1, 2)] }]
    let x : Plate := { state := .exposing, copy := plateCopy
                       res := (Vector.replicate 4 {}).set 0 { shown := true, pinned := true, slot := 0, alloc := 1 } }
    let p := withSlot ((exposing (some h)).setPlate 5 x) { whole with state := .superseded, pins := 1 }
    let s := up (waits (p.setChannel 1 { p.channels[(1 : Fin 2)] with cursors := [{ bandCursor with opening := none }] })
      (.plate 5) [2])
    (s.runs (.plate 5) (some .cancel) ∧ h.prepared = true ∧ h.live = true)
    ∧ left (.cancel 5) s (fun t =>
      t.part.slots[(0 : Fin 512)].state == .free && (t.part.channels[(1 : Fin 2)].inHand.any fun h' =>
        t.part.compose 1 h' [] == s.part.compose 1 h [] && (t.part.compose 1 h' []).bytes.take 4 == [0, 0, 0x40, 0]))
      = true := by
  unfold State.runs
  decide +kernel

/-- A request reads memory only where a code is read: not for the line held, and not under the broken mark (R59, R62,
R170). -/
theorem test_heldLineReadsNothing :
    let opened : OpenBand := { band := 0, cap := bandOpen.cap, line := some 0, next := 7, spans := [(1, 2)] }
    let last := fun (b : OpenBand) (offset : Nat) =>
      let p := withSlot { pressed { state := .exposing, copy := plateCopy } with
        mem := Memory.writeBytes [] 0x2000C0 bandPayload, port := { lastGrant := .passing } } whole
      ((p.setChannel 1 { queue := [5], cursors := [{ bandCursor with opening := none, band := some b }] }).takeInHand
        1 5 offset []).port.lastGrant
    last opened 0 = .passing ∧ last opened 64 = .own ∧ last { opened with runLeft := 1 } 64 = .passing
      ∧ last { opened with line := some 1 } 0 = .own ∧ last { opened with broken := true } 64 = .passing := by
  decide +kernel

/-- A block still in preparation at a CANCEL takes its snapshot when its composition begins (R66, R138): a state its band
has come to since hatches it; a slot freed since leaves the states of the CANCEL (log 12). -/
theorem test_cancelInPreparation :
    let fetched : PrepItem := { bandItem with spans := .data [(1, 2)] }
    let x : Plate := { state := .exposing, copy := plateCopy
                       res := (Vector.replicate 4 {}).set 0 { shown := true, pinned := true, slot := 0, alloc := 1 } }
    let p := withSlot (((exposing none).setPlate 5 x).setChannel 1
      { queue := [5], state := .exposing, cursors := [bandCursor] }) whole
    let composed := fun (q : Part) =>
      let x := q.compose 1 ((p.cancelledBlock 1 (inHand 0 [bandItem])).setItem fetched) []
      (x.bytes.take 4, x.cause)
    composed p = ([0, 0, 0x40, 0], none) ∧ composed (withSlot p {}) = ([0, 0, 0x40, 0], none)
      ∧ composed (withSlot p { whole with bands := (Vector.replicate 64 {}).set 0 { goodBand with state := .rereadBad } })
        = ([0, 0, 0, 0], some (.entry 0 0 1 (.band 0) .rereadBad)) := by decide +kernel

theorem witness_Release :
    (up (waits (pressed { state := .done }) (.plate 5) [3])).runs (.plate 5) (some .release)
      ∧ (up (waits (pressed { state := .ready }) (.plate 5) [3])).runs (.plate 5) (some .release)
      ∧ (pressed { state := .done }).plates[(5 : Fin 64)].state.armed = false
      ∧ (pressed { state := .ready }).plates[(5 : Fin 64)].state.armed = true := by
  unfold State.runs
  decide +kernel

/-- A directory command block. -/
def directoryBytes (code sep : Byte) (page : Nat) : List Byte :=
  [code, 9, sep, 1] ++ leBytes 2 20 ++ leBytes 2 page ++ leBytes 2 0

theorem witness_Discard :
    let f := fun sep page => parseDirectory (directoryBytes 1 sep page)
    (∀ x ∈ [(3, 1), (0, 999), (4, 1), (0, 0), (0, 1000)],
      (up (waits idle .directory (directoryBytes 1 x.1 x.2))).runs .directory (some .discardPage))
    ∧ ((f 3 1).sep ≤ 3 ∧ 1 ≤ (f 3 1).page ∧ (f 0 999).page ≤ 999)
    ∧ (3 < (f 4 1).sep ∧ (f 0 0).page < 1 ∧ 999 < (f 0 1000).page)
    ∧ (up (waits idle .directory (directoryBytes 2 0 0))).runs .directory (some .discardEdition) := by
  unfold State.runs
  decide +kernel

theorem witness_ClearCounters : (up (waits idle .directory [3])).runs .directory (some .clearCounters) := by
  unfold State.runs
  decide +kernel

theorem witness_TransferStages :
    (∀ k : Fin 17, curveExample[k] ≤ 4095) ∧ 256 ≤ 256 ∧ 0 ≤ 4095 ∧ 4095 ≤ 4095 := by decide +kernel

theorem witness_EveryStep : step State.reset = .next State.reset ∧ State.reset.part.currentSlots :=
  ⟨rfl, fun n m _ h => by
    rw [show State.reset.part.slots[n] = {} by simp [State.reset]] at h
    exact absurd h (by decide)⟩

theorem witness_HostMemoryChangesByForwardedWritesOnly :
    let w := block 0x200000 [1]
    ¬ (up idle).part.ownedAt 0x200040 ∧ 0x200000 + 64 ≤ 0x200040 ∧ w.addr.toNat = 0x200000 := by
  unfold Part.ownedAt
  decide +kernel

theorem witness_GoodSpanListsDecode : spanVerdict 100 6 spanExample = .good ∧ 5 < 6 := by decide +kernel

end Sys2Proof.Tests
end

section
/-! SUPPORT. Parcel intake (chapter 1): the tests of a header in their order (R2), and when a filter entry
matches (R14). -/

namespace Sys2Proof.Machine

/-! ## The tests of R2: what each gives where those before it hold -/

section
variable {bs : List Byte} {strobes : BitVec 64}

theorem headerFault_of_partialStrobe (notFull : strobes ≠ BitVec.allOnes 64) :
    headerFault bs strobes = some .partialStrobe := if_pos notFull

theorem headerFault_of_unmarked (full : strobes = BitVec.allOnes 64) (unmarked : bs.take 4 ≠ headerMarker) :
    headerFault bs strobes = some .marker := by
  rw [headerFault, if_neg (not_not.mpr full), if_pos unmarked]

theorem headerFault_of_marked (full : strobes = BitVec.allOnes 64) (marked : bs.take 4 = headerMarker) :
    headerFault bs strobes =
      if (crc32 (bs.take 60)).toNat ≠ beField bs 60 4 then some .headerCrc
      else if Config.maxPayload < beField bs 20 4 then some .length
      else none := by
  rw [headerFault, if_neg (not_not.mpr full), if_neg (not_not.mpr marked)]

theorem headerFault_of_unchecked (full : strobes = BitVec.allOnes 64) (marked : bs.take 4 = headerMarker)
    (unchecked : (crc32 (bs.take 60)).toNat ≠ beField bs 60 4) : headerFault bs strobes = some .headerCrc := by
  rw [headerFault_of_marked full marked, if_pos unchecked]

theorem headerFault_of_long (full : strobes = BitVec.allOnes 64) (marked : bs.take 4 = headerMarker)
    (checked : (crc32 (bs.take 60)).toNat = beField bs 60 4) (long : Config.maxPayload < beField bs 20 4) :
    headerFault bs strobes = some .length := by
  rw [headerFault_of_marked full marked, if_neg (not_not.mpr checked), if_pos long]

theorem headerFault_of_valid (full : strobes = BitVec.allOnes 64) (marked : bs.take 4 = headerMarker)
    (checked : (crc32 (bs.take 60)).toNat = beField bs 60 4) (short : beField bs 20 4 ≤ Config.maxPayload) :
    headerFault bs strobes = none := by
  rw [headerFault_of_marked full marked, if_neg (not_not.mpr checked), if_neg (Nat.not_lt.mpr short)]

end

/-- Settles O19, by the first test of R2 that fails. -/
theorem headerTests : Obligations.HeaderTests := by
  intro bs strobes full marked checked short
  by_cases hfull : full
  case neg => rw [headerFault_of_partialStrobe hfull]; simp [hfull]
  by_cases hmarked : marked
  case neg => rw [headerFault_of_unmarked hfull hmarked]; simp [hfull, hmarked]
  by_cases hchecked : checked
  case neg => rw [headerFault_of_unchecked hfull hmarked hchecked]; simp [hfull, hmarked, hchecked]
  by_cases hshort : short
  case neg =>
    rw [headerFault_of_long hfull hmarked hchecked (Nat.lt_of_not_le hshort)]
    simp [hfull, hmarked, hchecked, hshort]
  case pos => rw [headerFault_of_valid hfull hmarked hchecked hshort]; simp [hfull, hmarked, hchecked, hshort]

/-! ## The filter's match (R14) -/

/-- The model compares under a mask by `&&&` of the difference; R14 speaks of every bit set in the mask. -/
theorem xor_and_eq_zero_iff_testBit (a b m : Nat) :
    (a ^^^ b) &&& m = 0 ↔ ∀ i, m.testBit i = true → a.testBit i = b.testBit i := by
  have bitwise : (a ^^^ b) &&& m = 0 ↔ ∀ i, ((a ^^^ b) &&& m).testBit i = false :=
    ⟨fun h i => by rw [h, Nat.zero_testBit], Nat.zero_of_testBit_eq_false⟩
  rw [bitwise]
  refine forall_congr' fun i => ?_
  rw [Nat.testBit_and, Nat.testBit_xor]
  cases m.testBit i <;> simp

/-- R14's four conditions. -/
theorem FilterEntry.matches_iff (f : FilterEntry) (h : Header) :
    f.matches_ h = true ↔
      (∀ i, f.editionMask.testBit i = true → h.edition.testBit i = f.edition.testBit i)
      ∧ (∀ i, f.zoneMask.testBit i = true → h.zone.testBit i = f.zone.testBit i)
      ∧ (f.pageLow ≤ h.page ∧ h.page ≤ f.pageHigh) ∧ f.seps.getLsbD h.sep = true := by
  simp only [FilterEntry.matches_, Bool.and_eq_true, beq_iff_eq, decide_eq_true_eq, xor_and_eq_zero_iff_testBit,
    and_assoc]

theorem FilterEntry.matches_edition_of_mask_zero (f : FilterEntry) (h : Header) (e : Nat) (mask : f.editionMask = 0) :
    { f with edition := e }.matches_ h = f.matches_ h := by
  simp only [FilterEntry.matches_, mask, Nat.and_zero]

theorem FilterEntry.matches_zone_of_mask_zero (f : FilterEntry) (h : Header) (z : Nat) (mask : f.zoneMask = 0) :
    { f with zone := z }.matches_ h = f.matches_ h := by
  simp only [FilterEntry.matches_, mask, Nat.and_zero]

theorem FilterEntry.matches_of_no_separation (f : FilterEntry) (h : Header) (empty : f.seps = 0) :
    f.matches_ h = false := by
  refine Bool.eq_false_iff.mpr fun hit => ?_
  obtain ⟨-, -, -, sep⟩ := (f.matches_iff h).mp hit
  simp [empty] at sep

/-- Settles O21, by R14's four conditions, and what a mask of 0 and an empty separation set make of them. -/
theorem filterMatches : Obligations.FilterMatches := fun f h =>
  ⟨f.matches_iff h, fun e mask => (f.matches_edition_of_mask_zero h e mask).symm,
    fun z mask => (f.matches_zone_of_mask_zero h z mask).symm, f.matches_of_no_separation h⟩

end Sys2Proof.Machine
end

section
/-! SUPPORT. The transfer of the screen unit (4.5): what each of its three stages gives, and its bounds (R80 to R82). -/

namespace Sys2Proof.Machine

/-! ## Stage 1, the curve (R80) -/

theorem curveStage_eq (points : Vector Nat 17) (i f : Fin 16) (below : 16 * i.val + f.val < 256) :
    curveStage points ⟨16 * i.val + f.val, below⟩
      = (points[i.val] : Int) + (((points[i.val + 1] : Int) - points[i.val]) * f.val + 8) / 16 := by
  have segment : (16 * i.val + f.val) / 16 = i.val := by omega
  have offset : (16 * i.val + f.val) % 16 = f.val := by omega
  simp only [curveStage, segment, offset]

/-- Rounding a fraction below 1 of a step does not leave the step, in either direction. -/
theorem roundedFraction_between (d : Int) (f : Fin 16) :
    min 0 d ≤ (d * f.val + 8) / 16 ∧ (d * f.val + 8) / 16 ≤ max 0 d := by
  have nonneg : (0 : Int) ≤ f.val := by omega
  have small : (f.val : Int) ≤ 15 := by omega
  rcases le_total 0 d with rising | falling
  · have lower : 0 ≤ d * f.val := mul_nonneg rising nonneg
    have upper : d * f.val ≤ d * 15 := mul_le_mul_of_nonneg_left small rising
    omega
  · have upper : d * f.val ≤ 0 := mul_nonpos_of_nonpos_of_nonneg falling nonneg
    have lower : d * 15 ≤ d * f.val := mul_le_mul_of_nonpos_left small falling
    omega

/-- The curve stays between the two points of its segment. -/
theorem curveStage_between (points : Vector Nat 17) (i f : Fin 16) (below : 16 * i.val + f.val < 256) :
    min (points[i.val] : Int) points[i.val + 1] ≤ curveStage points ⟨16 * i.val + f.val, below⟩
      ∧ curveStage points ⟨16 * i.val + f.val, below⟩ ≤ max (points[i.val] : Int) points[i.val + 1] := by
  have between := roundedFraction_between ((points[i.val + 1] : Int) - points[i.val]) f
  rw [curveStage_eq]
  omega

theorem curveStage_in_range (points : Vector Nat 17) (i f : Fin 16) (below : 16 * i.val + f.val < 256)
    (inRange : ∀ k : Fin 17, points[k] ≤ 4095) :
    0 ≤ curveStage points ⟨16 * i.val + f.val, below⟩ ∧ curveStage points ⟨16 * i.val + f.val, below⟩ ≤ 4095 := by
  have between := curveStage_between points i f below
  have first : points[i.val] ≤ 4095 := inRange i.castSucc
  have second : points[i.val + 1] ≤ 4095 := inRange i.succ
  omega

/-! ## Stage 2, the trim (R81) -/

theorem trimStage_full (t : Int) : trimStage t 256 = t := by
  unfold trimStage
  omega

theorem trimStage_zero (t : Int) : trimStage t 0 = 0 := by simp [trimStage]

/-- The trim only ever lowers a value. -/
theorem trimStage_between {t : Int} {trim : Nat} (nonneg : 0 ≤ t) (atMost : trim ≤ 256) :
    0 ≤ trimStage t trim ∧ trimStage t trim ≤ t := by
  have lower : 0 ≤ t * trim := mul_nonneg nonneg (Int.natCast_nonneg trim)
  have upper : t * trim ≤ t * 256 := mul_le_mul_of_nonneg_left (by omega) nonneg
  unfold trimStage
  omega

/-- The trim rounds to the nearest value, halves upwards. -/
theorem trimStage_rounds (t : Int) (trim : Nat) :
    t * trim - 128 < 256 * trimStage t trim ∧ 256 * trimStage t trim ≤ t * trim + 128 := by
  unfold trimStage
  omega

/-! ## Stage 3, the anchors and the clamps (R82) -/

theorem clampStage_first {v : Fin 256} (first : v.val = 0) (w : Int) (minDot maxDot : Nat) :
    clampStage v w minDot maxDot = 0 := if_pos first

theorem clampStage_last {v : Fin 256} (last : v.val = 255) (w : Int) (minDot maxDot : Nat) :
    clampStage v w minDot maxDot = 4095 := by
  rw [clampStage, if_neg (by omega), if_pos last]

theorem clampStage_inside {v : Fin 256} (notFirst : 1 ≤ v.val) (notLast : v.val ≤ 254) (w : Int)
    (minDot maxDot : Nat) : clampStage v w minDot maxDot = min (max w.toNat minDot) maxDot := by
  rw [clampStage, if_neg (by omega), if_neg (by omega)]

theorem clampStage_le (v : Fin 256) (w : Int) (minDot : Nat) {maxDot : Nat} (inRange : maxDot ≤ 4095) :
    clampStage v w minDot maxDot ≤ 4095 := by
  unfold clampStage
  split_ifs <;> omega

/-- Settles O55, stage by stage: the curve between its two points, the trim below the curve, and the cases of the
sample in the clamps. -/
theorem transferStages : Obligations.TransferStages := by
  intro points trim minDot maxDot i f inRange trimAtMost ordered dotInRange v lo hi d t w u
  have curve : t = lo + (d * f.val + 8) / 16 := curveStage_eq points i f v.isLt
  obtain ⟨aboveLower, belowUpper⟩ : min lo hi ≤ t ∧ t ≤ max lo hi := curveStage_between points i f v.isLt
  obtain ⟨curveNonneg, curveLe⟩ : 0 ≤ t ∧ t ≤ 4095 := curveStage_in_range points i f v.isLt inRange
  obtain ⟨trimNonneg, trimLe⟩ : 0 ≤ w ∧ w ≤ t := trimStage_between curveNonneg trimAtMost
  have first : v.val = 0 → u = 0 := fun h => clampStage_first h w minDot maxDot
  have last : v.val = 255 → u = 4095 := fun h => clampStage_last h w minDot maxDot
  refine ⟨⟨curve, fun onPoint => ?onPoint, aboveLower, belowUpper, curveNonneg, curveLe, ?above, ?below⟩,
    ⟨rfl, ?full, ?zero, trimNonneg, trimLe.trans curveLe, trimStage_rounds t trim⟩,
    first, last, fun notFirst notLast => ?inside, clampStage_le v w minDot dotInRange,
    fun threshold positive inTable => ⟨fun h => ?never, fun h => ?always⟩⟩
  case onPoint => rw [curve, onPoint]; omega
  case above => omega
  case below => omega
  case full => rintro rfl; exact trimStage_full t
  case zero => rintro rfl; exact trimStage_zero t
  case inside =>
    have clamped : u = min (max w.toNat minDot) maxDot := clampStage_inside notFirst notLast w minDot maxDot
    omega
  case never => rw [first h]; omega
  case always => rw [last h]; exact inTable

end Sys2Proof.Machine
end

section
/-! SUPPORT. The hatch pattern (8.6): it is a function of x + y alone with period 32, so a run along a line or a column
is a window on one periodic sequence (R157). -/

namespace Sys2Proof.Machine

/-! ## Counting in a window of a periodic sequence -/

theorem countP_range_add (f : Nat → Bool) (m n : Nat) :
    (List.range (m + n)).countP f = (List.range m).countP f + (List.range n).countP fun i => f (m + i) := by
  rw [List.range_add, List.countP_append, List.countP_map]
  rfl

/-- A window one period long counts the same wherever it begins: what it loses at its front it gains at its end. -/
theorem countP_window_of_periodic {f : Nat → Bool} {period : Nat} (periodic : Function.Periodic f period) (d : Nat) :
    (List.range period).countP (fun i => f (d + i)) = (List.range period).countP f := by
  have fromFront := countP_range_add f d period
  have fromEnd := countP_range_add f period d
  have shifted : (fun i => f (period + i)) = f := funext fun i => by rw [Nat.add_comm]; exact periodic i
  rw [shifted, Nat.add_comm period d] at fromEnd
  omega

/-- So a window of several periods counts one period that many times. -/
theorem countP_windows_of_periodic {f : Nat → Bool} {period : Nat} (periodic : Function.Periodic f period) (d k : Nat) :
    (List.range (k * period)).countP (fun i => f (d + i)) = k * (List.range period).countP f := by
  induction k with
  | zero => rw [Nat.zero_mul, Nat.zero_mul]; rfl
  | succ k ih =>
    have lastWindow := countP_window_of_periodic periodic (d + k * period)
    simp only [Nat.add_assoc] at lastWindow
    rw [Nat.succ_mul, countP_range_add, ih, lastWindow, Nat.succ_mul]

/-! ## The pattern -/

theorem hatch_iff (x y : Nat) : hatch x y = true ↔ (x + y) % 32 < 4 := decide_eq_true_iff

theorem hatch_eq_of_modEq {x y x' y' : Nat} (same : (x + y) % 32 = (x' + y') % 32) : hatch x y = hatch x' y' := by
  rw [hatch, hatch, same]

theorem hatch_line_periodic : Function.Periodic (fun d => hatch d 0) 32 :=
  fun d => hatch_eq_of_modEq (by omega)

/-- A run along a line is a window on line 0 that begins at x + y. -/
theorem hatch_line (x y : Nat) : (fun i => hatch (x + i) y) = fun i => hatch (x + y + i) 0 :=
  funext fun i => hatch_eq_of_modEq (by omega)

/-- A run down a column is the run along the line from the same pixel, since both raise x + y by one. -/
theorem hatch_column (x y : Nat) : (fun i => hatch x (y + i)) = fun i => hatch (x + i) y :=
  funext fun i => hatch_eq_of_modEq (by omega)

theorem hatch_countP_period : (List.range 32).countP (fun d => hatch d 0) = 4 := by decide

theorem hatch_countP_line (x y : Nat) : (List.range 32).countP (fun i => hatch (x + i) y) = 4 := by
  rw [hatch_line, countP_window_of_periodic hatch_line_periodic, hatch_countP_period]

theorem hatch_countP_column (x y : Nat) : (List.range 32).countP (fun i => hatch x (y + i)) = 4 := by
  rw [hatch_column, hatch_countP_line]

theorem hatch_countP_square (x y : Nat) :
    ((List.range 32).map fun j => (List.range 32).countP fun i => hatch (x + i) (y + j)).sum = 128 := by
  have lines : (fun j => (List.range 32).countP fun i => hatch (x + i) (y + j)) = fun _ => 4 :=
    funext fun j => hatch_countP_line x (y + j)
  rw [lines, List.map_const', List.length_range, List.sum_replicate]
  rfl

/-- The 512 pixels of a block are sixteen periods. -/
theorem hatch_countP_block (x y : Nat) : (List.range 512).countP (fun i => hatch (x + i) y) = 64 := by
  have sixteen := countP_windows_of_periodic hatch_line_periodic (x + y) 16
  rw [hatch_countP_period] at sixteen
  rw [hatch_line]
  exact sixteen

/-- The four inked columns of a line, counted round within 32 from the one where x + y is a multiple of 32. -/
theorem hatch_iff_column (x y : Nat) :
    hatch x y = true ↔ ∃ j, j < 4 ∧ x % 32 = ((32 - y % 32) % 32 + j) % 32 := by
  rw [hatch_iff]
  constructor
  · exact fun inked => ⟨(x + y) % 32, inked, by omega⟩
  · rintro ⟨j, below, column⟩
    omega

/-- A byte group that begins at a multiple of 32 depends only on its line modulo 32. -/
theorem hatch_group {x y r : Nat} (aligned : x % 32 = 0) (line : y % 32 = r) :
    packPixels ((List.range 32).map fun i => hatch (x + i) y) = packPixels ((List.range 32).map fun i => hatch i r) := by
  have pixels : (fun i => hatch (x + i) y) = fun i => hatch i r := funext fun i => hatch_eq_of_modEq (by omega)
  rw [pixels]

/-- Settles O39: each property from the period of the diagonal, the byte groups on their lines 0, 4 and 5. -/
theorem hatchPattern : Obligations.HatchPattern := by
  refine ⟨hatch_iff, hatch_countP_line, hatch_countP_column, hatch_countP_square,
    fun x y _ => hatch_countP_block x y, hatch_iff_column, fun x y aligned => ⟨?line0, ?line4, ?line5⟩,
    fun x y => ⟨hatch_eq_of_modEq (by omega), hatch_eq_of_modEq (by omega)⟩,
    fun x y => hatch_eq_of_modEq (by omega)⟩
  case line0 => exact fun line => (hatch_group aligned line).trans (by decide)
  case line4 => exact fun line => (hatch_group aligned line).trans (by decide)
  case line5 => exact fun line => (hatch_group aligned line).trans (by decide)

end Sys2Proof.Machine
end

section
/-! SUPPORT. What a command can do, said once (`exec_effect`): the laws of every run are read off it. -/

namespace Sys2Proof.Machine

/-! ## Commands that are no reset command -/

/-- The write block that a command sends (R167, R177, R190). -/
def sentBlock (p : Part) : Instr → Option WriteBlock
  | .upstreamWriteBlock w => some w
  | .bodyWrite w => some w
  | .readCountWrite k data strobes last =>
    some { source := k, addr := p.readCountAddr, data := data, strobes := strobes, last := last }
  | _ => none

/-- What a command that is no reset command does to the part and to tile memory while RESETn is high: the part's own
work, the end of a tile read, the tick, a write block, or the filing of a HEAD. -/
inductive Effect (s t : State) : Instr → Prop
  | ownWork (c : Instr) (part : s.part.Keeps t.part) (tiles : t.tiles = s.tiles) : Effect s t c
  | tileRead (n : Fin 8) (cells : List Host.Cell) (values : List Nat) (part : s.part.Keeps t.part)
      (tiles : t.tiles = storeTile s.tiles s.part.sets[n] values) : Effect s t (.loadComplete n cells)
  | tick (part : t.part = s.part.advanceTick) (tiles : t.tiles = s.tiles) : Effect s t .tick
  | write (c : Instr) (w : WriteBlock) (sent : sentBlock s.part c = some w)
      (part : t.part = (s.part.takeWriteBlock w).1) (tiles : t.tiles = s.tiles) : Effect s t c
  | head (k : Fin 4) (part : t.part = s.part.fileNextHead k) (tiles : t.tiles = s.tiles) : Effect s t (.fileHead k)

/-- A command answers with this effect, or, while RESETn is low, with the state as it is; the queue and RESETn stay. -/
def Answers (c : Instr) (s : State) (r : Result) : Prop :=
  ∃ t, r = .next (if s.resetn then t else s) ∧ t.pending = s.pending ∧ t.resetn = s.resetn ∧ Effect s t c

/-- The reset commands (R184). -/
def isResetCommand : Instr → Bool
  | .resetAssert => true
  | .resetRelease _ _ => true
  | _ => false

theorem onPart_answers {c : Instr} {s : State} {f : Part → Part} (keeps : s.part.Keeps (f s.part)) :
    Answers c s (onPart s f) :=
  ⟨{ s with part := f s.part }, rfl, rfl, rfl, .ownWork c keeps rfl⟩

theorem dispatch_answers {c : Instr} {s : State} {r : RecordId} {cmd : Option Command} {act : Part → Part}
    (keeps : s.part.Keeps (act s.part)) : Answers c s (onPart s fun p => p.dispatch r cmd act) :=
  onPart_answers ((Part.Keeps.refl _).dispatch keeps)

theorem takeWrite_eq {s : State} {w : WriteBlock} {x : Part × BlockOutcome} (taken : s.part.takeWriteBlock w = x) :
    s.takeWrite w = { s with part := x.1, xfers := addBlock s.xfers w.source false w.addr.toNat x.2 w.last } := by
  rw [← taken, State.takeWrite]

theorem takeWrite_frame {s : State} {w : WriteBlock} {x : Part × BlockOutcome} (taken : s.part.takeWriteBlock w = x) :
    (s.takeWrite w).part = x.1 ∧ (s.takeWrite w).tiles = s.tiles ∧ (s.takeWrite w).pending = s.pending
      ∧ (s.takeWrite w).resetn = s.resetn := by
  rw [takeWrite_eq taken]
  exact ⟨rfl, rfl, rfl, rfl⟩

theorem takeWrite_answers {c : Instr} {s : State} {w : WriteBlock} (sent : sentBlock s.part c = some w) :
    Answers c s (.next (if s.resetn then s.takeWrite w else s)) := by
  obtain ⟨part, tiles, pending, resetn⟩ := takeWrite_frame (s := s) (w := w) rfl
  exact ⟨s.takeWrite w, rfl, pending, resetn, .write c w sent part tiles⟩

theorem readTaken_keeps (s : State) (r : ReadBlock) :
    s.part.Keeps (s.takeRead r).part ∧ (s.takeRead r).tiles = s.tiles ∧ (s.takeRead r).pending = s.pending
      ∧ (s.takeRead r).resetn = s.resetn := by
  unfold State.takeRead
  cases taken : s.part.takeReadBlock r with
  | none => exact ⟨.refl _, rfl, rfl, rfl⟩
  | some x => exact ⟨(Part.Keeps.refl _).takeReadBlock taken, rfl, rfl, rfl⟩

theorem takeRead_answers {c : Instr} {s : State} {r : ReadBlock} : Answers c s (whenUp s fun s => s.takeRead r) := by
  obtain ⟨part, tiles, pending, resetn⟩ := readTaken_keeps s r
  exact ⟨s.takeRead r, rfl, pending, resetn, .ownWork c part tiles⟩

theorem answerSource_answers {c : Instr} {s : State} {k : Fin 16} :
    Answers c s (whenUp s fun s => s.answerSource k) := by
  refine ⟨s.answerSource k, rfl, ?_⟩
  unfold State.answerSource
  split
  · exact ⟨rfl, rfl, .ownWork c (.refl _) rfl⟩
  · exact ⟨rfl, rfl, .ownWork c (.refl _) rfl⟩

theorem composeBlock_answers {c : Instr} {s : State} {k : Fin 2} :
    Answers c s (whenUp s fun s => s.composeBlock k) := by
  refine ⟨s.composeBlock k, rfl, ?_⟩
  unfold State.composeBlock
  split
  · exact ⟨rfl, rfl, .ownWork c (.refl _) rfl⟩
  · split
    · exact ⟨rfl, rfl, .ownWork c (Part.Keeps.refl _).serveBlock rfl⟩
    · exact ⟨rfl, rfl, .ownWork c (.refl _) rfl⟩

theorem completeLoad_answers {s : State} {n : Fin 8} {cells : List Host.Cell} :
    Answers (.loadComplete n cells) s (whenUp s fun s => s.completeLoad n cells) := by
  refine ⟨s.completeLoad n cells, rfl, ?_⟩
  unfold State.completeLoad
  dsimp only
  split
  · exact ⟨rfl, rfl, .tileRead n cells _ (Part.Keeps.refl _).completeLoad rfl⟩
  · exact ⟨rfl, rfl, .ownWork _ (.refl _) rfl⟩

theorem onBlock_aligned {a : BitVec 40} {s : State} {f : State → State} (aligned : a.toNat % 64 = 0) :
    onBlock a s f = whenUp s f := if_pos (beq_iff_eq.mpr aligned)

theorem onBlock_misaligned {a : BitVec 40} {s : State} {f : State → State} (misaligned : a.toNat % 64 ≠ 0) :
    onBlock a s f = .fault .unalignedBlock := if_neg fun h => misaligned (beq_iff_eq.mp h)

theorem writeBlock_answers {c : Instr} {s : State} {w : WriteBlock} (sent : sentBlock s.part c = some w)
    (aligned : w.addr.toNat % 64 = 0) : Answers c s (onBlock w.addr s fun s => s.takeWrite w) := by
  rw [onBlock_aligned aligned]
  exact takeWrite_answers sent

theorem readBlock_answers {c : Instr} {s : State} {r : ReadBlock} (aligned : r.addr.toNat % 64 = 0) :
    Answers c s (onBlock r.addr s fun s => s.takeRead r) := by
  rw [onBlock_aligned aligned]
  exact takeRead_answers

/-- Every command that is no reset command and whose block, if it has one, lies at a block address. -/
theorem exec_answers (c : Instr) (s : State) (notReset : isResetCommand c = false)
    (aligned : ∀ a, blockOf c = some a → a.toNat % 64 = 0) : Answers c s (exec c s) := by
  have here := Part.Keeps.refl s.part
  cases c with
  | resetAssert => cases notReset
  | resetRelease => cases notReset
  | startUpSweepEnd => exact onPart_answers here.endStartUp
  | tick => exact ⟨{ s with part := s.part.advanceTick }, rfl, rfl, rfl, .tick rfl rfl⟩
  | gapTimerExpiry n => exact onPart_answers (f := fun p => p.stall n) here.stall
  | orphanExpiry i => exact onPart_answers (f := fun p => p.expireOrphan i) here.expireOrphan
  | armDeadline n => exact onPart_answers (f := fun p => p.passDeadline n) here.passDeadline
  | upstreamWriteBlock w => exact writeBlock_answers rfl (aligned _ rfl)
  | upstreamReadBlock r => exact readBlock_answers (aligned _ rfl)
  | transactionResponse k => exact answerSource_answers
  | bodyWrite w => exact writeBlock_answers rfl (aligned _ rfl)
  | readCountWrite k data strobes last =>
    exact takeWrite_answers (w := ⟨k, s.part.readCountAddr, data, strobes, last⟩) rfl
  | statusHeaderPosted => exact onPart_answers here.postHeader
  | fileHead k => exact ⟨{ s with part := s.part.fileNextHead k }, rfl, rfl, rfl, .head k rfl rfl⟩
  | fileBandTone k => exact onPart_answers (f := fun p => p.fileNextBandTone k) here.fileNextBandTone
  | adoptionStart => exact onPart_answers here.beginAdoption
  | adoptionComplete cells => exact onPart_answers (f := fun p => p.finishAdoption cells) here.finishAdoption
  | plateWindowRead r => exact readBlock_answers (aligned _ rfl)
  | openComplete k i w cells => exact onPart_answers (f := fun p => p.finishOpen k i w cells) here.finishOpen
  | blockComposition k => exact composeBlock_answers
  | setParams => exact dispatch_answers here.doSetParams
  | restart => exact dispatch_answers here.restart
  | restartSweepEnd => exact onPart_answers here.endRestart
  | busyResult r => exact onPart_answers (f := fun p => p.busyResult r) here.busyResult
  | windowLoad n => exact dispatch_answers here.doWindowLoad
  | windowClose n => exact dispatch_answers here.doWindowClose
  | filterLoad n => exact dispatch_answers here.doFilterLoad
  | filterDisable n => exact dispatch_answers here.doFilterDisable
  | screenSetLoad n => exact dispatch_answers here.doSetLoad
  | loadComplete n cells => exact completeLoad_answers
  | unload n => exact dispatch_answers here.doUnload
  | arm n => exact dispatch_answers here.doArm
  | cancel n => exact dispatch_answers here.doCancel
  | release n => exact dispatch_answers here.doRelease
  | discardPage => exact dispatch_answers here.doDiscardPage
  | discardEdition => exact dispatch_answers here.doDiscardEdition
  | clearCounters => exact dispatch_answers here.doClearCounters
  | unknownCommand r => exact dispatch_answers here.doUnknown

theorem exec_misaligned {c : Instr} {s : State} {a : BitVec 40} (block : blockOf c = some a)
    (misaligned : a.toNat % 64 ≠ 0) : exec c s = .fault .unalignedBlock := by
  cases c with
  | upstreamWriteBlock w => cases block; exact onBlock_misaligned misaligned
  | upstreamReadBlock r => cases block; exact onBlock_misaligned misaligned
  | bodyWrite w => cases block; exact onBlock_misaligned misaligned
  | plateWindowRead r => cases block; exact onBlock_misaligned misaligned
  | _ => cases block

/-! ## The reset commands -/

/-- The state right after hard reset that a reset command may leave (R184). -/
def State.IsReset (s t : State) : Prop :=
  t.tiles = [] ∧ t.xfers = [] ∧ t.answer = none
    ∧ ∃ cabase tkdiv sweep, t.part = s.part.hardReset cabase tkdiv sweep

theorem exec_reset (c : Instr) (s : State) (reset : isResetCommand c = true) :
    ∃ t, exec c s = .next t ∧ t.pending = s.pending ∧ (t = s ∨ s.IsReset t) := by
  cases c with
  | resetAssert => exact ⟨_, rfl, rfl, .inr ⟨rfl, rfl, rfl, _, _, _, rfl⟩⟩
  | resetRelease cabase tkdiv =>
    refine ⟨_, rfl, ?_⟩
    by_cases up : s.resetn = true
    · rw [if_pos up]; exact ⟨rfl, .inl rfl⟩
    · rw [if_neg up]; exact ⟨rfl, .inr ⟨rfl, rfl, rfl, _, _, _, rfl⟩⟩
  | _ => cases reset

/-- What can become of a state by a command that answers: it stays, it is reset, or the command has its effect. -/
theorem exec_cases {c : Instr} {s t : State} (answer : exec c s = .next t) :
    t = s ∨ s.IsReset t ∨ (s.resetn = true ∧ t.resetn = true ∧ Effect s t c) := by
  by_cases reset : isResetCommand c = true
  · obtain ⟨t', e, -, same | isReset⟩ := exec_reset c s reset
    · obtain rfl : t' = t := by rw [e] at answer; injection answer
      exact .inl same
    · obtain rfl : t' = t := by rw [e] at answer; injection answer
      exact .inr (.inl isReset)
  · by_cases aligned : ∀ a, blockOf c = some a → a.toNat % 64 = 0
    · obtain ⟨t', e, -, resetn, effect⟩ := exec_answers c s (Bool.eq_false_iff.mpr reset) aligned
      rw [e] at answer
      injection answer with answer
      by_cases up : s.resetn = true
      · rw [if_pos up] at answer
        subst answer
        exact .inr (.inr ⟨up, resetn.trans up, effect⟩)
      · rw [if_neg up] at answer
        exact .inl answer.symm
    · push Not at aligned
      obtain ⟨a, block, misaligned⟩ := aligned
      rw [exec_misaligned block misaligned] at answer
      cases answer

/-- Settles O2: a misaligned block is the one stop; every other command answers by `exec_answers` or `exec_reset`. -/
theorem everyCommandAnswers : Obligations.EveryCommandAnswers := by
  intro c s
  refine ⟨fun ⟨a, block, misaligned⟩ => exec_misaligned block misaligned, fun aligned => ?_⟩
  by_cases reset : isResetCommand c = true
  · obtain ⟨t, e, pending, -⟩ := exec_reset c s reset
    exact ⟨t, e, pending⟩
  · obtain ⟨t, e, pending, -, -⟩ := exec_answers c s (Bool.eq_false_iff.mpr reset) aligned
    refine ⟨_, e, ?_⟩
    split
    · exact pending
    · rfl

end Sys2Proof.Machine
end

section
/-! SUPPORT. The laws of every run: the bounds, the law of current slots, and which bytes of memory change. -/

namespace Sys2Proof.Machine

/-! ## The bounds of the part -/

/-- Every bound of the part that holds of `p` holds of `q`. -/
structure Part.KeepsBounds (p q : Part) : Prop where
  wf : Memory.wf p.mem → Memory.wf q.mem
  orphans : p.orphansBounded → q.orphansBounded
  hold : p.holdBounded → q.holdBounded
  unread : p.reports.readBounded → q.reports.readBounded
  counts : p.reports.countsInRange → q.reports.countsInRange
  queues : p.queuesBounded → q.queuesBounded

namespace Part.KeepsBounds

theorem refl (p : Part) : p.KeepsBounds p := ⟨id, id, id, id, id, id⟩

theorem trans {p q r : Part} (h : p.KeepsBounds q) (g : q.KeepsBounds r) : p.KeepsBounds r :=
  ⟨g.wf ∘ h.wf, g.orphans ∘ h.orphans, g.hold ∘ h.hold, g.unread ∘ h.unread, g.counts ∘ h.counts,
    g.queues ∘ h.queues⟩

theorem of_evolves {p q : Part} (h : p.Evolves q) : p.KeepsBounds q :=
  ⟨h.wf, h.orphans, h.hold, h.unread, h.counts, h.queues⟩

theorem advanceTick (p : Part) : p.KeepsBounds p.advanceTick := ⟨id, id, id, id, id, id⟩

theorem forward (p : Part) (a : Nat) (data : Vector Byte 64) (strobes : BitVec 64) :
    p.KeepsBounds (p.forward a data strobes) :=
  ⟨fun wf => Memory.wf_writeStrobed p.mem a data strobes wf, id, id, id, id, id⟩

theorem takeWriteBlock (p : Part) (w : WriteBlock) : p.KeepsBounds (p.takeWriteBlock w).1 := by
  rcases p.takeWriteBlock_cases w with refused | ⟨-, keeps⟩
  · rw [refused]
    exact refl p
  · exact (forward p _ _ _).trans (of_evolves keeps.toEvolves)

end Part.KeepsBounds

theorem ReportUnit.init_readBounded : ({} : ReportUnit).readBounded := ReportUnit.restarted_readBounded

theorem ReportUnit.init_countsInRange : ({} : ReportUnit).countsInRange := by
  refine ⟨Nat.zero_le _, fun k => ?_⟩
  show (Vector.replicate 4 0)[k] ≤ Config.max16
  simp

theorem Part.hardReset_queuesBounded (p : Part) (cabase : BitVec 20) (tkdiv : BitVec 16) (sweep : Sweep) :
    (p.hardReset cabase tkdiv sweep).queuesBounded := fun k => by
  show (Vector.replicate 2 ({} : Channel))[k].queue.length ≤ Config.queueRoom
  simp

theorem Part.hardReset_keepsBounds (p : Part) (cabase : BitVec 20) (tkdiv : BitVec 16) (sweep : Sweep) :
    p.KeepsBounds (p.hardReset cabase tkdiv sweep) where
  wf := id
  orphans := fun _ => ⟨Nat.zero_le _, List.Pairwise.nil⟩
  hold := fun _ => Nat.zero_le _
  unread := fun _ => ReportUnit.init_readBounded
  counts := fun _ => ReportUnit.init_countsInRange
  queues := fun _ => p.hardReset_queuesBounded cabase tkdiv sweep

theorem Effect.keepsBounds {s t : State} {c : Instr} (effect : Effect s t c) : s.part.KeepsBounds t.part := by
  cases effect with
  | ownWork _ part _ => exact .of_evolves part.toEvolves
  | tileRead _ _ _ part _ => exact .of_evolves part.toEvolves
  | tick part _ => exact part ▸ .advanceTick s.part
  | write _ w _ part _ => exact part ▸ .takeWriteBlock s.part w
  | head k part _ => exact part ▸ .of_evolves (s.part.fileNextHead_evolves k)

theorem exec_keepsBounds {c : Instr} {s t : State} (answer : exec c s = .next t) : s.part.KeepsBounds t.part := by
  rcases exec_cases answer with rfl | ⟨-, -, -, cabase, tkdiv, sweep, part⟩ | ⟨-, -, effect⟩
  · exact .refl _
  · exact part ▸ s.part.hardReset_keepsBounds cabase tkdiv sweep
  · exact effect.keepsBounds

/-! ## Tile memory -/

/-- A threshold as it is stored is 1 to 4095 (R92), so that it is never the 12-bit 0. -/
theorem clampThreshold_ne_zero (v : Nat) : BitVec.ofNat 12 (clampThreshold v) ≠ 0 := by
  have inRange : 1 ≤ clampThreshold v ∧ clampThreshold v ≤ 4095 := by
    unfold clampThreshold
    split_ifs <;> omega
  intro zero
  have := congrArg BitVec.toNat zero
  rw [BitVec.toNat_ofNat, Nat.mod_eq_of_lt (by omega)] at this
  simp at this
  omega

/-- Tile memory keeps its form, and its thresholds their range. -/
structure TileMemory.Keeps (a b : TileMemory) : Prop where
  wf : TileMemory.wf a → TileMemory.wf b
  range : (∀ c ∈ a, c.2 ≠ 0) → ∀ c ∈ b, c.2 ≠ 0

theorem storeTile_keeps (a : TileMemory) (x : ScreenSet) (values : List Nat) : a.Keeps (storeTile a x values) where
  wf := TileMemory.wf_store a _ _
  range := fun inRange c hc => by
    rcases Store.mem_writeList Config.resetThreshold _ _ _ c hc with old | new
    · exact inRange c old
    · obtain ⟨v, -, e⟩ := List.mem_map.mp new
      rw [← e]
      exact clampThreshold_ne_zero v

theorem TileMemory.keeps_of_eq {a b : TileMemory} (same : b = a) : a.Keeps b := same ▸ ⟨id, id⟩

theorem Effect.keepsTiles {s t : State} {c : Instr} (effect : Effect s t c) : TileMemory.Keeps s.tiles t.tiles := by
  cases effect with
  | ownWork _ _ tiles => exact TileMemory.keeps_of_eq tiles
  | tileRead n _ values _ tiles => exact tiles ▸ storeTile_keeps s.tiles s.part.sets[n] values
  | tick _ tiles => exact TileMemory.keeps_of_eq tiles
  | write _ _ _ _ tiles => exact TileMemory.keeps_of_eq tiles
  | head _ _ tiles => exact TileMemory.keeps_of_eq tiles

theorem exec_keepsTiles {c : Instr} {s t : State} (answer : exec c s = .next t) :
    TileMemory.Keeps s.tiles t.tiles := by
  rcases exec_cases answer with rfl | ⟨tiles, -⟩ | ⟨-, -, effect⟩
  · exact ⟨id, id⟩
  · exact tiles ▸ ⟨fun _ => TileMemory.wf_nil, fun _ c hc => absurd hc List.not_mem_nil⟩
  · exact effect.keepsTiles

theorem exec_silentInReset {c : Instr} {s t : State} (answer : exec c s = .next t) (silent : s.silentInReset) :
    t.silentInReset := by
  rcases exec_cases answer with rfl | ⟨-, xfers, ans, -⟩ | ⟨-, up, -⟩
  · exact silent
  · exact fun _ => ⟨xfers, ans⟩
  · exact fun down => absurd up (by simp [down])

/-! ## Steps -/

/-- Settles O1. -/
theorem stepRunsTheFrontCommand : Obligations.StepRunsTheFrontCommand := by
  refine ⟨fun c rest s queue => ?_, fun s queue => ?_⟩
  · unfold step
    rw [queue]
  · unfold step
    rw [queue]

/-- A step that answers idles, or is a command with the rest of the queue behind it. -/
theorem step_cases {s t : State} (answer : step s = .next t) :
    t = s ∨ ∃ c rest, exec c { s with pending := rest } = .next t := by
  obtain ⟨front, idle⟩ := stepRunsTheFrontCommand
  cases queue : s.pending with
  | nil =>
    rw [idle s queue] at answer
    injection answer with same
    exact .inl same.symm
  | cons c rest => exact .inr ⟨c, rest, (front c rest s queue).symm.trans answer⟩

/-- Settles O56: an idle step changes nothing, and a command keeps each bound by `exec_cases`. -/
theorem everyStepKeepsTheBounds : Obligations.EveryStepKeepsTheBounds := by
  intro s t answer
  rcases step_cases answer with rfl | ⟨c, rest, run⟩
  · exact ⟨id, id, id, id, id, id, id, id⟩
  · have bounds : s.part.KeepsBounds t.part := exec_keepsBounds (s := { s with pending := rest }) run
    have tiles : TileMemory.Keeps s.tiles t.tiles := exec_keepsTiles (s := { s with pending := rest }) run
    exact ⟨fun ⟨mem, tile⟩ => ⟨bounds.wf mem, tiles.wf tile⟩, tiles.range, bounds.orphans, bounds.hold,
      bounds.unread, bounds.counts, bounds.queues, exec_silentInReset (s := { s with pending := rest }) run⟩

/-! ## The law of current slots (R30) -/

theorem Part.currentSlots_congr {p q : Part} (slots : q.slots = p.slots) (law : p.currentSlots) : q.currentSlots := by
  unfold Part.currentSlots
  rw [slots]
  exact law

/-- With every slot FREE the law says nothing. -/
theorem Part.hardReset_currentSlots (p : Part) (cabase : BitVec 20) (tkdiv : BitVec 16) (sweep : Sweep) :
    (p.hardReset cabase tkdiv sweep).currentSlots := by
  intro n m _ current
  have free : (p.hardReset cabase tkdiv sweep).slots[n] = {} := by
    show (Vector.replicate 512 ({} : Slot))[n] = {}
    simp
  rw [free] at current
  cases current

theorem Effect.currentSlots {s t : State} {c : Instr} (effect : Effect s t c) (law : s.part.currentSlots) :
    t.part.currentSlots := by
  cases effect with
  | ownWork _ part _ => exact part.currentSlots law
  | tileRead _ _ _ part _ => exact part.currentSlots law
  | tick part _ => exact Part.currentSlots_congr (congrArg Part.slots part) law
  | write _ w _ part _ =>
    rw [part]
    rcases s.part.takeWriteBlock_cases w with refused | ⟨-, keeps⟩
    · rw [refused]
      exact law
    · exact keeps.currentSlots (Part.currentSlots_congr rfl law)
  | head k part _ => exact part ▸ s.part.fileNextHead_currentSlots k law

/-- Settles O57: no act but the filing of a HEAD opens a slot, and that one keeps the law. -/
theorem everyStepKeepsTheLawOfCurrentSlots : Obligations.EveryStepKeepsTheLawOfCurrentSlots := by
  intro s t answer law
  rcases step_cases answer with rfl | ⟨c, rest, run⟩
  · exact law
  · rcases exec_cases run with rfl | ⟨-, -, -, cabase, tkdiv, sweep, part⟩ | ⟨-, -, effect⟩
    · exact law
    · exact part ▸ Part.hardReset_currentSlots _ cabase tkdiv sweep
    · exact effect.currentSlots law

/-! ## Memory outside the part-owned lines (R167, R176) -/

theorem Part.readCountAddr_toNat (p : Part) : p.readCountAddr.toNat = p.base + 0x40 := by
  have strap : p.cabase.toNat < 2 ^ 20 := p.cabase.isLt
  have base : p.base = p.cabase.toNat * 1048576 := rfl
  rw [Part.readCountAddr, BitVec.toNat_ofNat]
  exact Nat.mod_eq_of_lt (by simp only [Config.offReadCount]; omega)

/-- A write block changes no byte outside itself and the part-owned lines. -/
theorem Part.takeWriteBlock_owned (p : Part) (w : WriteBlock) (a : Nat) (host : ¬ p.ownedAt a)
    (outside : a < w.addr.toNat ∨ w.addr.toNat + 64 ≤ a) :
    (p.takeWriteBlock w).1.mem.read a = p.mem.read a := by
  rcases p.takeWriteBlock_cases w with refused | ⟨-, keeps⟩
  · rw [refused]
  · refine (keeps.owned a host).trans ?_
    exact Memory.read_writeStrobed_of_outside p.mem _ a w.data w.strobes outside

/-- Settles O58: own work writes to part-owned lines only, and a write block no byte outside itself. -/
theorem hostMemoryChangesByForwardedWritesOnly : Obligations.HostMemoryChangesByForwardedWritesOnly := by
  intro c s t a answer host outsideBlock outsideReadCount
  rcases exec_cases answer with rfl | ⟨-, -, -, _, _, _, part⟩ | ⟨-, -, effect⟩
  · rfl
  · rw [part]
    rfl
  · cases effect with
    | ownWork _ part _ => exact part.owned a host
    | tileRead _ _ _ part _ => exact part.owned a host
    | tick part _ => rw [part]; rfl
    | head k part _ => rw [part]; exact (s.part.fileNextHead_evolves k).owned a host
    | write _ w sent part _ =>
      rw [part]
      refine s.part.takeWriteBlock_owned w a host ?_
      cases c with
      | upstreamWriteBlock v => cases sent; exact outsideBlock w (.inl rfl)
      | bodyWrite v => cases sent; exact outsideBlock w (.inr rfl)
      | readCountWrite k data strobes last =>
        cases sent
        have outside := outsideReadCount k data strobes last rfl
        rw [Part.readCountAddr_toNat]
        omega
      | _ => cases sent

/-- Settles O59: the part at reset is the part that a hard reset leaves. -/
theorem invariantsHoldAtReset : Obligations.InvariantsHoldAtReset :=
  ⟨⟨Memory.wf_nil, TileMemory.wf_nil⟩, fun _ hc => absurd hc List.not_mem_nil, ⟨Nat.zero_le _, List.Pairwise.nil⟩,
    Nat.zero_le _, ReportUnit.init_readBounded, ReportUnit.init_countsInRange,
    Part.hardReset_queuesBounded {} 0 0 (.startUp 0), fun _ => ⟨rfl, rfl⟩,
    Part.hardReset_currentSlots {} 0 0 (.startUp 0)⟩

end Sys2Proof.Machine
end

section
/-! SUPPORT. Resets, time and the guards of events (9.5, 9.4): commands whose whole outcome is one equation. -/

namespace Sys2Proof.Machine

/-! ## The meaning of a command as the act it is -/

section
variable (s : State)

theorem exec_startUpSweepEnd : exec .startUpSweepEnd s = onPart s Part.endStartUp := rfl
theorem exec_tick : exec .tick s = onPart s Part.advanceTick := rfl
theorem exec_gapTimerExpiry (n : Fin 512) : exec (.gapTimerExpiry n) s = onPart s fun p => p.stall n := rfl
theorem exec_orphanExpiry (i : Nat) : exec (.orphanExpiry i) s = onPart s fun p => p.expireOrphan i := rfl
theorem exec_armDeadline (n : Fin 64) : exec (.armDeadline n) s = onPart s fun p => p.passDeadline n := rfl
theorem exec_upstreamWriteBlock (w : WriteBlock) :
    exec (.upstreamWriteBlock w) s = onBlock w.addr s fun s => s.takeWrite w := rfl
theorem exec_upstreamReadBlock (r : ReadBlock) :
    exec (.upstreamReadBlock r) s = onBlock r.addr s fun s => s.takeRead r := rfl
theorem exec_transactionResponse (k : Fin 16) :
    exec (.transactionResponse k) s = whenUp s fun s => s.answerSource k := rfl
theorem exec_bodyWrite (w : WriteBlock) : exec (.bodyWrite w) s = onBlock w.addr s fun s => s.takeWrite w := rfl
theorem exec_statusHeaderPosted : exec .statusHeaderPosted s = onPart s Part.postHeader := rfl
theorem exec_fileHead (k : Fin 4) : exec (.fileHead k) s = onPart s fun p => p.fileNextHead k := rfl
theorem exec_fileBandTone (k : Fin 4) : exec (.fileBandTone k) s = onPart s fun p => p.fileNextBandTone k := rfl
theorem exec_adoptionStart : exec .adoptionStart s = onPart s Part.beginAdoption := rfl
theorem exec_adoptionComplete (cells : List Host.Cell) :
    exec (.adoptionComplete cells) s = onPart s fun p => p.finishAdoption cells := rfl
theorem exec_plateWindowRead (r : ReadBlock) :
    exec (.plateWindowRead r) s = onBlock r.addr s fun s => s.takeRead r := rfl
theorem exec_openComplete (k : Fin 2) (i : Fin 4) (w : OpenTarget) (cells : List Host.Cell) :
    exec (.openComplete k i w cells) s = onPart s fun p => p.finishOpen k i w cells := rfl
theorem exec_blockComposition (k : Fin 2) : exec (.blockComposition k) s = whenUp s fun s => s.composeBlock k := rfl
theorem exec_setParams :
    exec .setParams s = onPart s fun p => p.dispatch .header (some .setParams) Part.doSetParams := rfl
theorem exec_restart : exec .restart s = onPart s fun p => p.dispatch .header (some .restart) Part.restart := rfl
theorem exec_restartSweepEnd : exec .restartSweepEnd s = onPart s Part.endRestart := rfl
theorem exec_busyResult (r : RecordId) : exec (.busyResult r) s = onPart s fun p => p.busyResult r := rfl
theorem exec_windowLoad (n : Fin 16) :
    exec (.windowLoad n) s = onPart s fun p => p.dispatch (.window n)
      (some .windowLoad) fun p => p.doWindowLoad n := rfl
theorem exec_windowClose (n : Fin 16) :
    exec (.windowClose n) s = onPart s fun p => p.dispatch (.window n)
      (some .windowClose) fun p => p.doWindowClose n := rfl
theorem exec_filterLoad (n : Fin 16) :
    exec (.filterLoad n) s = onPart s fun p => p.dispatch (.filter n)
      (some .filterLoad) fun p => p.doFilterLoad n := rfl
theorem exec_filterDisable (n : Fin 16) :
    exec (.filterDisable n) s = onPart s fun p => p.dispatch (.filter n)
      (some .filterDisable) fun p => p.doFilterDisable n := rfl
theorem exec_screenSetLoad (n : Fin 8) :
    exec (.screenSetLoad n) s = onPart s fun p => p.dispatch (.screenSet n)
      (some .setLoad) fun p => p.doSetLoad n := rfl
theorem exec_loadComplete (n : Fin 8) (cells : List Host.Cell) :
    exec (.loadComplete n cells) s = whenUp s fun s => s.completeLoad n cells := rfl
theorem exec_unload (n : Fin 8) :
    exec (.unload n) s = onPart s fun p => p.dispatch (.screenSet n) (some .setUnload) fun p => p.doUnload n := rfl
theorem exec_arm (n : Fin 64) :
    exec (.arm n) s = onPart s fun p => p.dispatch (.plate n) (some .arm) fun p => p.doArm n := rfl
theorem exec_cancel (n : Fin 64) :
    exec (.cancel n) s = onPart s fun p => p.dispatch (.plate n) (some .cancel) fun p => p.doCancel n := rfl
theorem exec_release (n : Fin 64) :
    exec (.release n) s = onPart s fun p => p.dispatch (.plate n) (some .release) fun p => p.doRelease n := rfl
theorem exec_discardPage :
    exec .discardPage s = onPart s fun p => p.dispatch .directory (some .discardPage) Part.doDiscardPage := rfl
theorem exec_discardEdition :
    exec .discardEdition s = onPart s fun p => p.dispatch .directory (some .discardEdition) Part.doDiscardEdition := rfl
theorem exec_clearCounters :
    exec .clearCounters s = onPart s fun p => p.dispatch .directory (some .clearCounters) Part.doClearCounters := rfl
theorem exec_unknownCommand (r : RecordId) :
    exec (.unknownCommand r) s = onPart s fun p => p.dispatch r none fun p => p.doUnknown r := rfl

/-- A write of the read-count block is a write block like any other, at its own address (log 34). -/
theorem exec_readCountWrite (k : Fin 16) (data : Vector Byte 64) (strobes : BitVec 64) (last : Bool) :
    exec (.readCountWrite k data strobes last) s
      = whenUp s fun s => s.takeWrite ⟨k, s.part.readCountAddr, data, strobes, last⟩ := rfl

end

theorem whenUp_up {s : State} {f : State → State} (up : s.resetn = true) : whenUp s f = .next (f s) :=
  congrArg Host.Outcome.next (if_pos up)

theorem onPart_up {s : State} {f : Part → Part} (up : s.resetn = true) :
    onPart s f = .next { s with part := f s.part } := whenUp_up up

/-- An act that leaves the part as it is leaves the state as it is. -/
theorem onPart_idle {s : State} {f : Part → Part} (idle : f s.part = s.part) : onPart s f = .next s := by
  have same : { s with part := f s.part } = s := by rw [idle]
  show Host.Outcome.next (if s.resetn then { s with part := f s.part } else s) = .next s
  rw [same, ite_self]

theorem whenUp_idle {s : State} {f : State → State} (idle : f s = s) : whenUp s f = .next s := by
  unfold whenUp
  rw [idle, ite_self]

/-- Settles O7. -/
theorem tick : Obligations.Tick := fun s up => (exec_tick s).trans (onPart_up up)

/-- Settles O5: the fall and the rise are the reset commands' own equations; every other command asks for RESETn. -/
theorem hardReset : Obligations.HardReset := by
  refine ⟨fun s => rfl, fun cabase tkdiv s => ⟨fun down => ?fall, fun up => ?stays⟩,
    fun c s down notAssert notRelease aligned => ?low⟩
  case fall =>
    show execResetRelease cabase tkdiv s = _
    rw [execResetRelease, if_neg (by simp [down])]
    rfl
  case stays =>
    show execResetRelease cabase tkdiv s = _
    rw [execResetRelease, if_pos up]
  case low =>
    have notReset : isResetCommand c = false := by
      cases c with
      | resetAssert => exact absurd rfl notAssert
      | resetRelease cabase tkdiv => exact absurd rfl (notRelease cabase tkdiv)
      | _ => rfl
    obtain ⟨t, answer, -⟩ := exec_answers c s notReset aligned
    rw [answer, if_neg (by simp [down])]

/-- Settles O4: the fields of the state after hard reset, table by table. -/
theorem hardResetValues : Obligations.HardResetValues := by
  unfold Obligations.HardResetValues
  intro s p
  have unit (r : RecordId) : p.unit r = {} := Vector.getElem_replicate _
  have window (n : Fin 16) : p.windows[n] = {} := Vector.getElem_replicate _
  have filter (n : Fin 16) : p.filters[n] = {} := Vector.getElem_replicate _
  have parser (k : Fin 4) : p.parsers[k] = {} := Vector.getElem_replicate _
  have slot (n : Fin 512) : p.slots[n] = {} := Vector.getElem_replicate _
  have plate (n : Fin 64) : p.plates[n] = {} := Vector.getElem_replicate _
  have channel (k : Fin 2) : p.channels[k] = {} := Vector.getElem_replicate _
  have set (n : Fin 8) : p.sets[n] = {} := Vector.getElem_replicate _
  have owner (n : Fin 8) : p.owners[n] = none := Vector.getElem_replicate _
  have damage (k : Fin 4) : p.reports.damage[k] = 0 := Vector.getElem_replicate _
  refine ⟨rfl, rfl, rfl, rfl, fun _ => rfl, fun _ => rfl, rfl, rfl, rfl, rfl, rfl, rfl, rfl, rfl, rfl, rfl, rfl, rfl,
    damage, fun r => ?_, fun n => ?_, fun n => ?_, fun k => ?_, rfl, rfl, fun n => ?_, fun n => ?_, fun k => ?_,
    fun n => ?_⟩
  · rw [unit]; exact ⟨rfl, rfl⟩
  · rw [window]
  · rw [filter]; exact ⟨rfl, rfl, rfl, rfl, rfl, rfl⟩
  · rw [parser]; exact ⟨rfl, rfl, rfl, rfl, rfl, rfl, rfl, rfl⟩
  · rw [slot]; exact ⟨rfl, rfl, rfl, rfl, rfl⟩
  · rw [plate]; exact ⟨rfl, rfl, rfl, rfl, rfl, rfl⟩
  · rw [channel]; exact ⟨rfl, rfl, rfl, rfl, rfl, rfl, rfl, rfl⟩
  · rw [set, owner]; exact ⟨rfl, rfl, rfl, rfl⟩

/-! ## Events whose condition does not hold (log 3) -/

theorem Part.stall_idle {p : Part} {n : Fin 512} (idle : p.slots[n].state ≠ .filling ∨ p.slots[n].deadline = none) :
    p.stall n = p := by
  refine if_neg fun expired => ?_
  rw [Part.gapExpired, Bool.and_eq_true] at expired
  obtain ⟨filling, reached⟩ := expired
  rcases idle with state | stopped
  · exact state (beq_iff_eq.mp filling)
  · rw [stopped] at reached
    cases reached

theorem Part.expireOrphan_idle {p : Part} {i : Nat} (beyond : p.orphans.length ≤ i) : p.expireOrphan i = p := by
  rw [Part.expireOrphan, List.getElem?_eq_none beyond]

theorem Part.passDeadline_idle {p : Part} {n : Fin 64}
    (idle : p.plates[n].state.armed = false ∨ p.plates[n].copy.deadline = 0) : p.passDeadline n = p := by
  refine if_neg fun due => ?_
  simp only [Part.deadlineDue, Bool.and_eq_true, bne_iff_ne] at due
  obtain ⟨⟨⟨⟨armed, watched⟩, -⟩, -⟩, -⟩ := due
  rcases idle with unarmed | none
  · rw [unarmed] at armed
    cases armed
  · exact watched none

theorem Part.nextParcel_none {p : Part} {k : Fin 4} (empty : ∀ c ∈ p.transit, c.stream ≠ k) : p.nextParcel k = none :=
  List.find?_eq_none.mpr fun c hc => by simpa using empty c hc

theorem Part.fileNextHead_idle {p : Part} {k : Fin 4} (empty : ∀ c ∈ p.transit, c.stream ≠ k) :
    p.fileNextHead k = p := by
  rw [Part.fileNextHead, Part.nextParcel_none empty]

theorem Part.fileNextBandTone_idle {p : Part} {k : Fin 4} (empty : ∀ c ∈ p.transit, c.stream ≠ k) :
    p.fileNextBandTone k = p := by
  rw [Part.fileNextBandTone, Part.nextParcel_none empty]

theorem nextAdoption_none {q : List Orphan} (unbound : ∀ o ∈ q, o.binding = none) : nextAdoption q = none := by
  have none_bound : q.findSome? (fun o => o.binding.map fun b => (o, b)) = none :=
    List.findSome?_eq_none_iff.mpr fun o ho => by rw [unbound o ho]; rfl
  rw [nextAdoption, none_bound, ite_self]

theorem currentAdoption_none {q : List Orphan} (unbound : ∀ o ∈ q, o.binding = none) : currentAdoption q = none := by
  have none_flying : q.find? Orphan.inFlight = none :=
    List.find?_eq_none.mpr fun o ho => by simp [Orphan.inFlight, unbound o ho]
  rw [currentAdoption, none_flying]
  rfl

theorem Part.beginAdoption_idle {p : Part} (unbound : ∀ o ∈ p.orphans, o.binding = none) : p.beginAdoption = p := by
  rw [Part.beginAdoption, nextAdoption_none unbound]

theorem Part.finishAdoption_idle {p : Part} {cells : List Host.Cell} (unbound : ∀ o ∈ p.orphans, o.binding = none) :
    p.finishAdoption cells = p := by
  rw [Part.finishAdoption, currentAdoption_none unbound]

theorem Part.finishOpen_idle {p : Part} {k : Fin 2} {i : Fin 4} {w : OpenTarget} {cells : List Host.Cell}
    (empty : p.channels[k].inHand = none) : p.finishOpen k i w cells = p := by
  have noOpen : p.channels[k].findOpen i w = none := by rw [Channel.findOpen, empty]
  rw [Part.finishOpen, noOpen]

theorem State.composeBlock_idle {s : State} {k : Fin 2} (empty : s.part.channels[k].inHand = none) :
    s.composeBlock k = s := by
  rw [State.composeBlock, empty]

theorem State.completeLoad_idle {s : State} {n : Fin 8} {cells : List Host.Cell}
    (idle : s.part.sets[n].state ≠ .loading) : s.completeLoad n cells = s := if_neg idle

theorem postedWrite_none {own : List OwnWrite} (noHeader : ∀ w ∈ own, ∀ n, w ≠ .statusHeader n) :
    postedWrite own = none := by
  induction own with
  | nil => rfl
  | cons w rest ih =>
    have rest := ih fun x hx => noHeader x (List.mem_cons_of_mem w hx)
    cases w with
    | statusHeader n => exact absurd rfl (noHeader _ List.mem_cons_self n)
    | _ => exact rest

theorem Part.postHeader_idle {p : Part} (noHeader : ∀ w ∈ p.port.own, ∀ n, w ≠ .statusHeader n) :
    p.postHeader = p := by
  rw [Part.postHeader, postedWrite_none noHeader]

theorem Part.endStartUp_idle {p : Part} (ended : p.sweep = .none) : p.endStartUp = p := by
  simp [Part.endStartUp, Part.startingUp, ended]

theorem Part.endRestart_idle {p : Part} (ended : p.sweep = .none) : p.endRestart = p := by
  simp [Part.endRestart, Part.restarting, ended]

theorem Part.dispatch_idle {p : Part} {r : RecordId} {c : Option Command} {act : Part → Part}
    (notTaken : (p.unit r).stage ≠ .taken) (notBarred : (p.unit r).stage ≠ .barred) : p.dispatch r c act = p := by
  refine if_neg fun awaits => ?_
  simp only [Part.awaits, CmdStage.undispatched, Bool.and_eq_true, Bool.or_eq_true, beq_iff_eq] at awaits
  exact awaits.1.elim notTaken notBarred

/-- Settles O3: each event's guard, by the lemma on its act. -/
theorem eventsThatDoNotComeAbout : Obligations.EventsThatDoNotComeAbout := by
  intro s
  refine ⟨fun n idle => ?gap, fun i beyond => ?orphan, fun n idle => ?deadline, fun k empty => ⟨?head, ?bandTone⟩,
    fun unbound => ⟨?begin, fun cells => ?finish⟩, fun k empty => ⟨?compose, fun i w cells => ?opened⟩,
    fun ended => ⟨?startUp, ?restart⟩, fun noHeader => ?posted, fun n idle cells => ?load,
    fun n notTaken notBarred => ⟨?arm, ?cancel, ?release⟩⟩
  case gap => rw [exec_gapTimerExpiry]; refine onPart_idle ?_; exact Part.stall_idle idle
  case orphan => rw [exec_orphanExpiry]; refine onPart_idle ?_; exact Part.expireOrphan_idle beyond
  case deadline => rw [exec_armDeadline]; refine onPart_idle ?_; exact Part.passDeadline_idle idle
  case head => rw [exec_fileHead]; refine onPart_idle ?_; exact Part.fileNextHead_idle empty
  case bandTone => rw [exec_fileBandTone]; refine onPart_idle ?_; exact Part.fileNextBandTone_idle empty
  case begin => rw [exec_adoptionStart]; refine onPart_idle ?_; exact Part.beginAdoption_idle unbound
  case finish => rw [exec_adoptionComplete]; refine onPart_idle ?_; exact Part.finishAdoption_idle unbound
  case compose => rw [exec_blockComposition]; refine whenUp_idle ?_; exact State.composeBlock_idle empty
  case opened => rw [exec_openComplete]; refine onPart_idle ?_; exact Part.finishOpen_idle empty
  case startUp => rw [exec_startUpSweepEnd]; refine onPart_idle ?_; exact Part.endStartUp_idle ended
  case restart => rw [exec_restartSweepEnd]; refine onPart_idle ?_; exact Part.endRestart_idle ended
  case posted => rw [exec_statusHeaderPosted]; refine onPart_idle ?_; exact Part.postHeader_idle noHeader
  case load => rw [exec_loadComplete]; refine whenUp_idle ?_; exact State.completeLoad_idle idle
  case arm => rw [exec_arm]; refine onPart_idle ?_; exact Part.dispatch_idle notTaken notBarred
  case cancel => rw [exec_cancel]; refine onPart_idle ?_; exact Part.dispatch_idle notTaken notBarred
  case release => rw [exec_release]; refine onPart_idle ?_; exact Part.dispatch_idle notTaken notBarred

/-! ## The status header's posting and the interrupt line (R195) -/

theorem ahead_iff (a b : Word) : ahead a b = true ↔ 0 < (a - b).toInt := by
  rw [ahead, Bool.and_eq_true, decide_eq_true_eq, Bool.not_eq_true', BitVec.msb_eq_false_iff_two_mul_lt,
    BitVec.toInt_eq_toNat_cond]
  constructor
  · rintro ⟨differ, small⟩
    rw [if_pos small]
    have : (a - b).toNat ≠ 0 := fun zero => differ (by bv_omega)
    omega
  · intro positive
    split at positive
    · refine ⟨?_, by assumption⟩
      rintro rfl
      simp at positive
    · have := (a - b).isLt
      omega

theorem Part.kint_iff (p : Part) :
    p.kint = true ↔ p.params.enable ≠ 0 ∧ 0 < (p.reports.posted - p.reports.read).toInt := by
  rw [Part.kint, Bool.and_eq_true, bne_iff_ne, ahead_iff]

theorem postedWrite_append {before after : List OwnWrite} {n : Word}
    (noHeader : ∀ w ∈ before, ∀ m, w ≠ .statusHeader m) :
    postedWrite (before ++ .statusHeader n :: after) = some (n, after) := by
  induction before with
  | nil => rfl
  | cons w rest ih =>
    have rest := ih fun x hx => noHeader x (List.mem_cons_of_mem w hx)
    cases w with
    | statusHeader m => exact absurd rfl (noHeader _ List.mem_cons_self m)
    | _ => exact rest

/-- Settles O17. -/
theorem statusHeaderIsPosted : Obligations.StatusHeaderIsPosted := by
  refine ⟨fun s before after n up own noHeader => ?_, fun s => s.part.kint_iff⟩
  rw [exec_statusHeaderPosted, onPart_up up, Part.postHeader, own, postedWrite_append noHeader]

/-! ## The sequence check (R13) -/

/-- Settles O20: the distance from the expected sequence decides. -/
theorem sequenceCheck_distance : Obligations.SequenceCheck := by
  refine fun x s => ⟨fun unset => ?_, fun e set zero => ?_, fun e set one below => ?_, fun e set far => ?_⟩
  · have check : sequenceCheck x.sequence s = .inOrder := by rw [unset]; rfl
    exact ⟨check, by rw [Parser.checkSequence, check]⟩
  · have same : s = e := by bv_omega
    have check : sequenceCheck x.sequence s = .inOrder := by rw [set]; exact if_pos same
    exact ⟨check, by rw [Parser.checkSequence, check]⟩
  · have differ : s ≠ e := by rintro rfl; simp at one
    have near : (s - e).msb = false := BitVec.msb_eq_false_iff_two_mul_lt.mpr (by omega)
    have check : sequenceCheck x.sequence s = .gap e (s - e) := by
      rw [set, sequenceCheck]
      simp only [if_neg differ, near]
      rfl
    exact ⟨check, by rw [Parser.checkSequence, check]⟩
  · have differ : s ≠ e := by rintro rfl; simp at far
    have behind : (s - e).msb = true := BitVec.msb_eq_true_iff_two_mul_ge.mpr (by omega)
    have check : sequenceCheck x.sequence s = .late := by
      rw [set, sequenceCheck]
      simp only [if_neg differ, behind, if_true]
    exact ⟨check, by rw [Parser.checkSequence, check]; rfl⟩

end Sys2Proof.Machine
end

section
/-! SUPPORT. Which bytes of memory the shared operations touch: one lemma for each own write, in the words of
`Part.keptOutside`. -/

namespace Sys2Proof.Machine

/-- No byte outside the ranges of the control area differs; the straps and the form of memory stay. -/
structure Part.Touches (ranges : List (Nat × Nat)) (p q : Part) : Prop where
  cabase : q.cabase = p.cabase
  kept : p.keptOutside q ranges
  wf : Memory.wf p.mem → Memory.wf q.mem

/-- The ring entry of a record (R189, R202). -/
def ringRange (number : Word) : Nat × Nat := (ringOffset number, 64)

theorem Part.reportRanges_eq (p : Part) : p.reportRanges = [ringRange p.reports.written, headerRange] := rfl

/-- A plate's status record is its only status record of two blocks. -/
def statusRange (r : RecordId) : Nat × Nat := (r.statusOffset, statusSize r)

theorem statusRange_header : statusRange .header = headerRange := rfl
theorem statusRange_plate (n : Fin 64) : statusRange (.plate n) = plateRange n := rfl
theorem statusRange_window (n : Fin 16) : statusRange (.window n) = resultRange (.window n) := rfl
theorem statusRange_filter (n : Fin 16) : statusRange (.filter n) = resultRange (.filter n) := rfl
theorem statusRange_screenSet (n : Fin 8) : statusRange (.screenSet n) = resultRange (.screenSet n) := rfl

theorem Part.base_congr {p q : Part} (cabase : q.cabase = p.cabase) : q.base = p.base := by
  unfold Part.base
  rw [cabase]

namespace Part.Touches

variable {ranges : List (Nat × Nat)} {p q : Part}

theorem refl (ranges : List (Nat × Nat)) (p : Part) : p.Touches ranges p := ⟨rfl, fun _ _ => rfl, id⟩

theorem trans {r : Part} (h : p.Touches ranges q) (g : q.Touches ranges r) : p.Touches ranges r := by
  refine ⟨g.cabase.trans h.cabase, fun a outside => ?_, g.wf ∘ h.wf⟩
  refine (g.kept a fun x hx => ?_).trans (h.kept a outside)
  rw [Part.base_congr h.cabase]
  exact outside x hx

/-- The same bytes within more ranges. -/
theorem mono {more : List (Nat × Nat)} (h : p.Touches ranges q) (sub : ranges ⊆ more) : p.Touches more q :=
  ⟨h.cabase, fun a outside => h.kept a fun x hx => outside x (sub hx), h.wf⟩

/-- A fold of acts. -/
theorem foldl {β : Type} (h : p.Touches ranges q) (act : Part → β → Part)
    (hact : ∀ (a : Part) (b : β), a.Touches ranges (act a b)) (bs : List β) : p.Touches ranges (bs.foldl act q) :=
  h.trans (foldl_keeps (fun a => q.Touches ranges a) act (fun a b ha => ha.trans (hact a b)) bs q (refl ranges q))

/-- An act for each number. -/
theorem forEach {n : Nat} (h : p.Touches ranges q) (act : Part → Fin n → Part)
    (hact : ∀ (a : Part) (k : Fin n), a.Touches ranges (act a k)) : p.Touches ranges (forEach n act q) :=
  h.foldl act hact (List.finRange n)

variable (h : p.Touches ranges q)
include h

/-- Work on the tables. -/
theorem tables (r : Part) (cabase : r.cabase = q.cabase := by rfl) (mem : r.mem = q.mem := by rfl) :
    p.Touches ranges r :=
  h.trans ⟨cabase, fun a _ => by rw [mem], fun wf => by rwa [mem]⟩

theorem setReports {x : ReportUnit} : p.Touches ranges (q.setReports x) := h.tables _
theorem setSlot {n : Fin 512} {x : Slot} : p.Touches ranges (q.setSlot n x) := h.tables _
theorem setChannel {k : Fin 2} {x : Channel} : p.Touches ranges (q.setChannel k x) := h.tables _
theorem setPlate {n : Fin 64} {x : Plate} : p.Touches ranges (q.setPlate n x) := h.tables _
theorem setSet {n : Fin 8} {x : ScreenSet} : p.Touches ranges (q.setSet n x) := h.tables _
theorem setWindow {n : Fin 16} {x : Window} : p.Touches ranges (q.setWindow n x) := h.tables _
theorem setFilter {n : Fin 16} {x : FilterEntry} : p.Touches ranges (q.setFilter n x) := h.tables _
theorem setParser {k : Fin 4} {x : Parser} : p.Touches ranges (q.setParser k x) := h.tables _
theorem setRecord {r : RecordId} {x : CmdUnit} : p.Touches ranges (q.setRecord r x) := h.tables _
theorem setTransit {x : List Parcel} : p.Touches ranges (q.setTransit x) := h.tables _
theorem setOrphans {x : List Orphan} : p.Touches ranges (q.setOrphans x) := h.tables _
theorem setOwners {x : Vector (Option (Fin 8)) 8} : p.Touches ranges (q.setOwners x) := h.tables _
theorem setParams {x : Params} : p.Touches ranges (q.setParams x) := h.tables _
theorem setSweep {x : Sweep} : p.Touches ranges (q.setSweep x) := h.tables _
theorem ownRead : p.Touches ranges (q.ownRead) := h.tables _
theorem changePlate {n : Fin 64} {f : Plate → Plate} : p.Touches ranges (q.changePlate n f) := h.tables _

/-- An own write within one of the ranges. -/
theorem own {w : OwnWrite} {off : Nat} {bs : List Byte} {x : Nat × Nat} (inside : x ∈ ranges) (low : x.1 ≤ off)
    (high : off + bs.length ≤ x.1 + x.2) : p.Touches ranges (q.own w off bs) := by
  refine h.trans ⟨rfl, fun a outside => ?_, fun wf => Memory.wf_writeBytes _ _ _ wf⟩
  have := outside x inside
  exact Memory.read_writeBytes_of_outside _ _ _ _ (by omega)

theorem headerWrite {g : HeaderGroup} (inside : headerRange ∈ ranges) : p.Touches ranges (q.headerWrite g) := by
  refine h.own inside (Nat.le_add_right _ _) ?_
  rw [q.groupBytes_length]
  cases g <;> simp only [HeaderGroup.offset, groupSize, headerRange, Config.offStatusHeader] <;> omega

theorem statusWrite {r : RecordId} (inside : statusRange r ∈ ranges) : p.Touches ranges (q.statusWrite r) := by
  have length := q.statusBytes_length r
  cases r with
  | header => exact h.own inside (Nat.le_refl _) (Nat.le_of_eq (congrArg _ length))
  | window n => exact h.own inside (Nat.le_refl _) (Nat.le_of_eq (congrArg _ length))
  | filter n => exact h.own inside (Nat.le_refl _) (Nat.le_of_eq (congrArg _ length))
  | screenSet n => exact h.own inside (Nat.le_refl _) (Nat.le_of_eq (congrArg _ length))
  | plate n => exact h.own inside (Nat.le_refl _) (Nat.le_of_eq (congrArg _ length))
  | directory => exact h.own inside (Nat.le_refl _) (Nat.le_of_eq (congrArg _ length))

theorem plateStatus {n : Fin 64} (inside : plateRange n ∈ ranges) : p.Touches ranges (q.plateStatus n) :=
  h.statusWrite inside

/-- A result block is the first block of its record's status record. -/
theorem finish {r : RecordId} {c : ResultCode} {d : Nat} (inside : resultRange r ∈ ranges) :
    p.Touches ranges (q.finish r c d) := by
  unfold Part.finish
  dsimp only
  split
  · refine (h.tables _).own inside (Nat.le_refl _) ?_
    rw [Part.groupBytes_length]
    simp only [HeaderGroup.offset, groupSize, resultRange, RecordId.statusOffset, Config.offStatusHeader]
    omega
  · refine (h.tables _).own inside (Nat.le_refl _) ?_
    rw [List.length_take]
    exact Nat.add_le_add_left (Nat.min_le_left _ _) _

theorem finishFree {r : RecordId} {c : ResultCode} (inside : resultRange r ∈ ranges) :
    p.Touches ranges (q.finishFree r c) := (h.tables { q with freeReads := q.freeReads + 1 }).finish inside

theorem setStage {r : RecordId} {st : CmdStage} : p.Touches ranges (q.setStage r st) := h.tables _

theorem lose (inside : headerRange ∈ ranges) : p.Touches ranges q.lose := (h.tables _).headerWrite inside

theorem writeReport {r : Report} (ring : ringRange q.reports.written ∈ ranges) (inside : headerRange ∈ ranges) :
    p.Touches ranges (q.writeReport r) := by
  unfold Part.writeReport
  dsimp only
  apply Part.Touches.headerWrite _ inside
  apply Part.Touches.setReports
  exact h.own ring (Nat.le_refl _) (Nat.le_of_eq (congrArg _ (r.bytes_length _)))

theorem takeReport {r : Report} (ring : ringRange q.reports.written ∈ ranges) (inside : headerRange ∈ ranges) :
    p.Touches ranges (q.takeReport r) := by
  unfold Part.takeReport
  split
  · exact h
  · split
    · split
      · exact h.tables _
      · exact h.lose inside
    · split
      · exact h.lose inside
      · exact h.writeReport ring inside

theorem raise {k : ReportKind} {x : Subject} (ring : ringRange q.reports.written ∈ ranges)
    (inside : headerRange ∈ ranges) : p.Touches ranges (q.raise k x) := h.takeReport ring inside

theorem mirrorBlock {n : Fin 512} {record : List Byte} {b : Nat} (small : b < mirrorBlocks)
    (inside : mirrorRange n ∈ ranges) : p.Touches ranges (q.mirrorBlock n record b) := by
  have length := fieldBytes_length_le record (64 * b) 64
  refine h.own inside ?_ ?_ <;> simp only [mirrorRange, mirrorOffset, mirrorBlocks] at * <;> omega

theorem mirrorWrite {n : Fin 512} {record : List Byte} {body : List Nat} (blocks : ∀ b ∈ body, b ∈ bodyBlocks)
    (inside : mirrorRange n ∈ ranges) : p.Touches ranges (q.mirrorWrite n record body) := by
  have last : p.Touches ranges (q.mirrorBlock n record (mirrorBlocks - 1)) := h.mirrorBlock (by decide) inside
  have blocksTouch : ∀ (bs : List Nat), (∀ b ∈ bs, b < mirrorBlocks) → ∀ {x : Part}, p.Touches ranges x →
      p.Touches ranges (bs.foldl (fun p b => p.mirrorBlock n record b) x) := by
    intro bs
    induction bs with
    | nil => exact fun _ _ hx => hx
    | cons b bs ih =>
      exact fun small _ hx => ih (fun y hy => small y (List.mem_cons_of_mem b hy))
        (hx.mirrorBlock (small b List.mem_cons_self) inside)
  refine (blocksTouch body (fun b hb => ?_) last).mirrorBlock (by decide) inside
  have small := (List.mem_range'_1.mp (blocks b hb)).2
  simp only [mirrorBlocks] at small ⊢
  omega

theorem changeSlot {n : Fin 512} {f : Slot → Slot} (inside : mirrorRange n ∈ ranges) :
    p.Touches ranges (q.changeSlot n f) :=
  (h.tables (q.setSlot n _)).mirrorWrite (fun _ hb => (List.mem_filter.mp hb).1) inside

theorem changeChannel {k : Fin 2} {f : Channel → Channel} (inside : headerRange ∈ ranges) :
    p.Touches ranges (q.changeChannel k f) := by
  unfold Part.changeChannel
  dsimp only
  split
  · exact (h.tables (q.setChannel k _)).headerWrite inside
  · exact h.tables _

theorem changeParser {k : Fin 4} {f : Parser → Parser} (inside : headerRange ∈ ranges) :
    p.Touches ranges (q.changeParser k f) := (h.tables (q.setParser k _)).headerWrite inside

/-- A write block forwarded to a block of the control area. -/
theorem forward {off : Nat} {data : Vector Byte 64} {strobes : BitVec 64} (inside : (off, 64) ∈ ranges) :
    p.Touches ranges (q.forward (q.base + off) data strobes) := by
  refine h.trans ⟨rfl, fun a outside => ?_, fun wf => Memory.wf_writeStrobed _ _ _ _ wf⟩
  have := outside _ inside
  exact Memory.read_writeStrobed_of_outside _ _ _ _ _ (by omega)

end Part.Touches

/-! ## Reports: what each case of R189 leaves -/

/-- A lost report (R191). -/
def ReportUnit.losing (r : ReportUnit) (tick : Word) : ReportUnit :=
  { r with
    firstLoss := if r.lost = 0 then tick else r.firstLoss
    lastLoss := tick
    lost := satInc Config.max16 r.lost
    saturated := r.saturated || r.lost == Config.max16 }

/-- A record written (R189). -/
def ReportUnit.writing (r : ReportUnit) : ReportUnit :=
  { r with written := r.written + 1, recent := satInc Config.ringEntries r.recent }

@[simp] theorem Part.lose_reports (p : Part) : p.lose.reports = p.reports.losing p.tick :=
  Part.headerWrite_reports _ _

@[simp] theorem Part.writeReport_reports (p : Part) (r : Report) : (p.writeReport r).reports = p.reports.writing :=
  Part.headerWrite_reports _ _

theorem Part.lose_eq (p : Part) :
    p.lose = { p with reports := p.reports.losing p.tick, mem := p.lose.mem, port := p.lose.port } := by
  apply Part.ext <;> simp

theorem Part.writeReport_eq (p : Part) (r : Report) :
    p.writeReport r
      = { p with reports := p.reports.writing, mem := (p.writeReport r).mem, port := (p.writeReport r).port } := by
  apply Part.ext <;> simp

/-- Settles O18, by the cases of R189. -/
theorem reportIsTaken : Obligations.ReportIsTaken := by
  intro s r p q
  refine ⟨p.takeReport_suppressed r, fun passes sweeping room => ?held, fun passes full => ?lost,
    fun passes up room => ?written⟩
  case held => exact p.takeReport_held r passes (by simpa [Part.sweeping] using sweeping) room
  case lost =>
    have loses : q = p.lose := by
      rcases full with ⟨sweeping, full⟩ | ⟨up, full⟩
      · have : p.sweeping = true := by simpa [Part.sweeping] using sweeping
        simp [q, Part.takeReport, passes, this, Config.holdRoom, Nat.not_lt.mpr full]
      · exact p.takeReport_lost r passes (by simp [Part.sweeping, up]) full
    have kept : p.Touches [headerRange] p.lose := (Part.Touches.refl _ p).lose (by simp)
    rw [loses]
    exact ⟨p.lose_eq, kept.kept⟩
  case written =>
    have writes : q = p.writeReport r := p.takeReport_written r passes (by simp [Part.sweeping, up]) room
    have kept : p.Touches p.reportRanges (p.writeReport r) :=
      (Part.Touches.refl _ p).writeReport (by simp [Part.reportRanges_eq]) (by simp [Part.reportRanges_eq])
    rw [writes]
    refine ⟨p.writeReport_eq r, fun wf => ?_, kept.kept⟩
    rw [Nat.add_assoc]
    exact p.writeReport_ring r wf

end Sys2Proof.Machine
end

section
/-! SUPPORT. The memory path (chapter 9): what becomes of a block by its class, and the read count (chapter 10). -/

namespace Sys2Proof.Machine

/-! ## A write that no extent meets (R149) -/

theorem Part.slotsWhere_none {p : Part} {test : Slot → Bool} (none : ∀ n : Fin 512, test p.slots[n] = false) :
    p.slotsWhere test = [] := by
  have empty : (numbered p.slots).filter (fun x => test x.2) = [] := by
    refine List.filter_eq_nil_iff.mpr fun x hx => ?_
    rw [numbered_get p.slots hx, none x.1]
    exact Bool.false_ne_true
  rw [Part.slotsWhere, empty]
  rfl

theorem Part.trampleOrphans_none {p : Part} {t : Trample} (none : ∀ o ∈ p.orphans, o.loc.meets t.block = false) :
    p.trampleOrphans t = p := by
  unfold Part.trampleOrphans
  extract_lets hit marked dropped q
  have same : marked = p.orphans := by
    refine (List.map_congr_left fun o ho => ?_).trans (List.map_id _)
    have missed : hit o = false := none o ho
    cases o.binding with
    | none => rfl
    | some b => simp [missed]
  have noneDropped : dropped = [] := by
    refine List.filter_eq_nil_iff.mpr fun o ho => ?_
    have missed : hit o = false := none o (same ▸ ho)
    simp [missed]
  have allLeft : marked.filter (fun o => !(o.waiting && hit o)) = p.orphans := by
    rw [same]
    refine List.filter_eq_self.mpr fun o ho => ?_
    have missed : hit o = false := none o ho
    simp [missed]
  rw [noneDropped]
  show p.setOrphans _ = p
  rw [allLeft]
  rfl

theorem Part.trampleTransit_none {p : Part} {t : Trample} (none : ∀ c ∈ p.transit, c.loc.meets t.block = false) :
    p.trampleTransit t = p := by
  have same : (p.transit.map fun c =>
      if c.kind ≠ .head ∧ c.loc.meets t.block ∧ c.mark = Option.none then { c with mark := some t } else c)
        = p.transit := by
    refine (List.map_congr_left fun c hc => ?_).trans (List.map_id _)
    rw [none c hc]
    simp
  rw [Part.trampleTransit, same]
  rfl

theorem Part.trampleTest_unwatched {p : Part} {source : Fin 16} {block : Nat} (unwatched : p.unwatched block) :
    p.trampleTest source block = p := by
  obtain ⟨slots, orphans, transit⟩ := unwatched
  have noSlot : p.slotsWhere (fun s => !(s.metEntries block).isEmpty) = [] :=
    Part.slotsWhere_none fun n => by rw [slots n]; rfl
  unfold Part.trampleTest
  rw [noSlot]
  dsimp only [List.foldl_nil]
  rw [Part.trampleOrphans_none orphans, Part.trampleTransit_none transit]

theorem Part.forwardWrite_unwatched {p : Part} {w : WriteBlock} (unwatched : p.unwatched w.addr.toNat) :
    p.forwardWrite w = p.forward w.addr.toNat w.data w.strobes :=
  Part.trampleTest_unwatched (p := p.forward w.addr.toNat w.data w.strobes) unwatched

/-! ## What becomes of a write block, by its class (R167) -/

section
variable {p : Part} {w : WriteBlock}

theorem Part.takeWriteBlock_memory (cls : p.classify w.addr.toNat = .memory) :
    p.takeWriteBlock w = (p.forwardWrite w, .forwarded) := by rw [Part.takeWriteBlock, cls]; rfl

theorem Part.takeWriteBlock_unwatched (cls : p.classify w.addr.toNat = .control .unwatched) :
    p.takeWriteBlock w = (p.forwardWrite w, .forwarded) := by rw [Part.takeWriteBlock, cls]; rfl

theorem Part.takeWriteBlock_intake {n : Fin 16} (cls : p.classify w.addr.toNat = .intake n) :
    p.takeWriteBlock w = (p.writeIntake w n, .forwarded) := by rw [Part.takeWriteBlock, cls]; rfl

theorem Part.takeWriteBlock_plate {n : Fin 16} (cls : p.classify w.addr.toNat = .plate n) :
    p.takeWriteBlock w = (p, .refused) := by rw [Part.takeWriteBlock, cls]; rfl

theorem Part.takeWriteBlock_partOwned (cls : p.classify w.addr.toNat = .control .partOwned) :
    p.takeWriteBlock w = (p, .refused) := by rw [Part.takeWriteBlock, cls]; rfl

theorem Part.takeWriteBlock_readCount (cls : p.classify w.addr.toNat = .control .readCount) :
    p.takeWriteBlock w = ((p.forwardWrite w).readCountBlock w, .forwarded) := by rw [Part.takeWriteBlock, cls]; rfl

variable {r : RecordId} {b : Nat}

theorem Part.takeWriteBlock_record (cls : p.classify w.addr.toNat = .control (.record r b)) :
    p.takeWriteBlock w =
      if (p.unit r).stage ≠ .unlocked then (p, .refused)
      else if b = 0 ∧ isCommand w then
        if p.startingUp then (p, .refused) else ((p.forwardWrite w).takeCommand r, .forwarded)
      else (p.forwardWrite w, .forwarded) := by rw [Part.takeWriteBlock, cls]; rfl

theorem Part.takeWriteBlock_locked (cls : p.classify w.addr.toNat = .control (.record r b))
    (locked : (p.unit r).stage ≠ .unlocked) : p.takeWriteBlock w = (p, .refused) := by
  rw [Part.takeWriteBlock_record cls, if_pos locked]

theorem Part.takeWriteBlock_body (cls : p.classify w.addr.toNat = .control (.record r b))
    (free : (p.unit r).stage = .unlocked) (body : ¬ (b = 0 ∧ isCommand w = true)) :
    p.takeWriteBlock w = (p.forwardWrite w, .forwarded) := by
  rw [Part.takeWriteBlock_record cls, if_neg (not_not.mpr free), if_neg body]

theorem Part.takeWriteBlock_startingUp (cls : p.classify w.addr.toNat = .control (.record r 0))
    (free : (p.unit r).stage = .unlocked) (command : isCommand w = true) (starting : p.startingUp = true) :
    p.takeWriteBlock w = (p, .refused) := by
  rw [Part.takeWriteBlock_record cls, if_neg (not_not.mpr free), if_pos ⟨rfl, command⟩, if_pos starting]

theorem Part.takeWriteBlock_command (cls : p.classify w.addr.toNat = .control (.record r 0))
    (free : (p.unit r).stage = .unlocked) (command : isCommand w = true) (started : p.startingUp = false) :
    p.takeWriteBlock w = ((p.forwardWrite w).takeCommand r, .forwarded) := by
  rw [Part.takeWriteBlock_record cls, if_neg (not_not.mpr free), if_pos ⟨rfl, command⟩,
    if_neg (Bool.eq_false_iff.mp started)]

end

theorem isCommand_iff (w : WriteBlock) : isCommand w = true ↔ w.strobes.getLsbD 0 = true ∧ w.data[0] ≠ 0 := by
  rw [isCommand, Bool.and_eq_true, bne_iff_ne]

theorem Part.startingUp_iff (p : Part) : p.startingUp = true ↔ ∃ k, p.sweep = .startUp k := by
  unfold Part.startingUp
  split
  · exact ⟨fun _ => ⟨_, by assumption⟩, fun _ => rfl⟩
  · rename_i other
    exact ⟨fun h => (nomatch h), fun ⟨k, e⟩ => absurd e (other k)⟩

/-! ## The commands that send a write block -/

section
variable {s : State} {w : WriteBlock} {x : Part × BlockOutcome} (up : s.resetn = true)
  (aligned : w.addr.toNat % 64 = 0) (taken : s.part.takeWriteBlock w = x)
include up aligned taken

theorem exec_upstreamWriteBlock_taken :
    exec (.upstreamWriteBlock w) s
      = .next { s with part := x.1, xfers := addBlock s.xfers w.source false w.addr.toNat x.2 w.last } := by
  rw [exec_upstreamWriteBlock, onBlock_aligned aligned, whenUp_up up, takeWrite_eq taken]

theorem exec_bodyWrite_taken :
    exec (.bodyWrite w) s
      = .next { s with part := x.1, xfers := addBlock s.xfers w.source false w.addr.toNat x.2 w.last } := by
  rw [exec_bodyWrite, onBlock_aligned aligned, whenUp_up up, takeWrite_eq taken]

end

/-- Settles O11: each class that the part refuses. -/
theorem refusedWritesChangeNothing : Obligations.RefusedWritesChangeNothing := by
  intro w s up aligned refuses
  have refused : s.part.takeWriteBlock w = (s.part, .refused) := by
    rcases refuses with owned | ⟨n, plate⟩ | ⟨r, b, record, locked | ⟨rfl, strobed, nonzero, starting⟩⟩
    · exact Part.takeWriteBlock_partOwned owned
    · exact Part.takeWriteBlock_plate plate
    · exact Part.takeWriteBlock_locked record locked
    · by_cases free : (s.part.unit r).stage = .unlocked
      · exact Part.takeWriteBlock_startingUp record free ((isCommand_iff w).mpr ⟨strobed, nonzero⟩)
          (s.part.startingUp_iff.mpr starting)
      · exact Part.takeWriteBlock_locked record free
  exact ⟨exec_upstreamWriteBlock_taken up aligned refused, exec_bodyWrite_taken up aligned refused⟩

/-- What a forwarded block leaves in memory (R167): its strobed bytes, and every byte outside it. -/
theorem Memory.writeStrobed_block (m : Memory) (wf : Memory.wf m) (w : WriteBlock) :
    (∀ k : Fin 64, (m.writeStrobed w.addr.toNat w.data w.strobes).read (w.addr.toNat + k)
        = if w.strobes.getLsbD k then w.data[k] else m.read (w.addr.toNat + k))
      ∧ ∀ a, a < w.addr.toNat ∨ w.addr.toNat + 64 ≤ a →
        (m.writeStrobed w.addr.toNat w.data w.strobes).read a = m.read a :=
  ⟨fun k => Memory.read_writeStrobed_inside m _ w.data w.strobes k wf,
    fun a outside => Memory.read_writeStrobed_of_outside m _ a w.data w.strobes outside⟩

/-- Settles O10: a block of ordinary memory, of an unwatched line or of a record's body is forwarded, and no extent
meets it. -/
theorem writesAreForwarded : Obligations.WritesAreForwarded := by
  refine ⟨fun w s up aligned cls unwatched wf => ?memory, fun w r b s up aligned cls free body unwatched wf => ?body⟩
  case memory =>
    have taken : s.part.takeWriteBlock w = (s.part.forward w.addr.toNat w.data w.strobes, .forwarded) := by
      rw [← Part.forwardWrite_unwatched unwatched]
      exact cls.elim Part.takeWriteBlock_memory Part.takeWriteBlock_unwatched
    exact ⟨_, exec_upstreamWriteBlock_taken up aligned taken, rfl, Memory.writeStrobed_block _ wf w⟩
  case body =>
    have notCommand : ¬ (b = 0 ∧ isCommand w = true) := by
      rw [isCommand_iff]
      rintro ⟨first, strobed, nonzero⟩
      rcases body with other | unstrobed | zero
      · exact other first
      · exact Bool.false_ne_true (unstrobed.symm.trans strobed)
      · exact nonzero zero
    have taken : s.part.takeWriteBlock w = (s.part.forward w.addr.toNat w.data w.strobes, .forwarded) := by
      rw [← Part.forwardWrite_unwatched unwatched]
      exact Part.takeWriteBlock_body cls free notCommand
    exact ⟨_, exec_bodyWrite_taken up aligned taken, rfl, Memory.writeStrobed_block _ wf w⟩

/-- Settles O12. -/
theorem commandWriteLocksTheRecord : Obligations.CommandWriteLocksTheRecord := by
  intro w r s up aligned cls free strobed nonzero started unwatched wf
  have notStarting : s.part.startingUp = false :=
    Bool.eq_false_iff.mpr fun h => by
      obtain ⟨k, e⟩ := s.part.startingUp_iff.mp h
      exact started k e
  have taken : s.part.takeWriteBlock w
      = ((s.part.forward w.addr.toNat w.data w.strobes).takeCommand r, .forwarded) := by
    rw [← Part.forwardWrite_unwatched unwatched]
    exact Part.takeWriteBlock_command cls free ((isCommand_iff w).mpr ⟨strobed, nonzero⟩) notStarting
  exact ⟨_, exec_upstreamWriteBlock_taken up aligned taken, rfl, Part.unit_setRecord _ r _,
    fun r' other => Part.unit_setRecord_ne _ r r' _ other, Memory.writeStrobed_block _ wf w⟩

/-! ## Read blocks and answers (R168) -/

theorem Part.takeReadBlock_memory {p : Part} {r : ReadBlock} (cls : ∀ n, p.classify r.addr.toNat ≠ .plate n) :
    p.takeReadBlock r = some (p.readMemory r) := by
  rw [Part.takeReadBlock]
  cases h : p.classify r.addr.toNat with
  | control line => rfl
  | plate n => exact absurd h (cls n)
  | intake n => rfl
  | memory => rfl

/-- Settles O13. -/
theorem readIsAnsweredFromMemory : Obligations.ReadIsAnsweredFromMemory := by
  intro r s up aligned cls asWritten
  have block : s.part.returnedBlock r = s.part.mem.readBytes r.addr.toNat 64 := by
    rw [Part.returnedBlock, asWritten]
    rfl
  rw [exec_upstreamReadBlock, onBlock_aligned aligned, whenUp_up up, State.takeRead, Part.takeReadBlock_memory cls,
    State.readTaken, Part.readMemory, block]
  rfl

theorem respond_oldest {k : Fin 16} {before after : List Xfer} {x : Xfer} (others : ∀ y ∈ before, y.source ≠ k)
    (own : x.source = k) :
    respond k (before ++ x :: after) = if x.ready then some (x.answer, before ++ after) else none := by
  induction before with
  | nil => simp [respond, own]
  | cons y before ih =>
    have rest := ih fun z hz => others z (List.mem_cons_of_mem y hz)
    rw [List.cons_append, respond, if_neg (others y List.mem_cons_self), rest]
    split
    · rfl
    · rfl

theorem BlockOutcome.settled_iff (o : BlockOutcome) : o.settled = true ↔ ∀ c, o ≠ .composing c := by
  cases o with
  | composing c => exact ⟨fun h => (nomatch h), fun h => absurd rfl (h c)⟩
  | _ => exact ⟨fun _ _ h => (nomatch h), fun _ => rfl⟩

theorem Xfer.ready_iff (x : Xfer) : x.ready = true ↔ x.closed = true ∧ ∀ o ∈ x.blocks, ∀ c, o ≠ .composing c := by
  rw [Xfer.ready, Bool.and_eq_true, List.all_eq_true]
  exact and_congr_right fun _ => forall₂_congr fun o _ => o.settled_iff

theorem Xfer.answer_refused_iff (x : Xfer) : x.answer.refused = true ↔ BlockOutcome.refused ∈ x.blocks := by
  simp [Xfer.answer]

/-- Settles O14. -/
theorem transactionIsAnswered : Obligations.TransactionIsAnswered := by
  intro k before after x s up flight others own
  refine ⟨fun ready => ?_, fun waits => ?_⟩
  · refine ⟨{ s with xfers := before ++ after, answer := some x.answer }, ?_, rfl, x.answer, rfl, own, rfl,
      x.answer_refused_iff, fun read => ?_⟩
    · rw [exec_transactionResponse, whenUp_up up, State.answerSource, flight, respond_oldest others own,
        if_pos (x.ready_iff.mpr ready)]
    · exact if_pos read
  · have notReady : ¬ x.ready = true := by
      rw [x.ready_iff]
      rintro ⟨closed, settled⟩
      rcases waits with isOpen | ⟨c, composing⟩
      · exact Bool.false_ne_true (isOpen.symm.trans closed)
      · exact settled _ composing c rfl
    rw [exec_transactionResponse, whenUp_up up, State.answerSource, flight, respond_oldest others own, if_neg notReady]

/-! ## The read count (R190, R192) -/

theorem Part.classify_control {p : Part} {off : Nat} (inside : off < Config.controlArea) :
    p.classify (p.base + off) = .control (controlLine off) := by
  rw [Part.classify, if_pos ⟨Nat.le_add_right _ _, Nat.add_lt_add_left inside _⟩, Nat.add_sub_cancel_left]

theorem Part.classify_readCountAddr (p : Part) : p.classify p.readCountAddr.toNat = .control .readCount := by
  rw [p.readCountAddr_toNat, Part.classify_control (by decide)]
  rfl

/-- The four bytes of a read-count block, the first one least significant (0.7). -/
theorem readCountField (data : Vector Byte 64) :
    BitVec.ofNat 32 (leField data.toList 0 4) = data[3] ++ data[2] ++ data[1] ++ data[0] := by
  have bytes : fieldBytes data.toList 0 4 = [data[0], data[1], data[2], data[3]] := by
    refine List.ext_getElem (by simp [fieldBytes]) fun i _ h => ?_
    simp only [List.length_cons, List.length_nil] at h
    have : i = 0 ∨ i = 1 ∨ i = 2 ∨ i = 3 := by omega
    rcases this with rfl | rfl | rfl | rfl <;> simp [fieldBytes]
  have value : leField data.toList 0 4
      = data[0].toNat + 256 * (data[1].toNat + 256 * (data[2].toNat + 256 * data[3].toNat)) := by
    rw [leField, bytes]
    simp [leNat]
  apply BitVec.eq_of_toNat_eq
  have b0 := data[0].isLt
  have b1 := data[1].isLt
  have b2 := data[2].isLt
  have b3 := data[3].isLt
  rw [value, BitVec.toNat_ofNat, Nat.mod_eq_of_lt (by omega)]
  rw [BitVec.toNat_append, BitVec.toNat_append, BitVec.toNat_append, ← Nat.shiftLeft_add_eq_or_of_lt b2,
    ← Nat.shiftLeft_add_eq_or_of_lt b1, ← Nat.shiftLeft_add_eq_or_of_lt b0]
  simp only [Nat.shiftLeft_eq]
  omega

theorem takeWrite_readCount {s : State} {w : WriteBlock} (cls : s.part.classify w.addr.toNat = .control .readCount)
    (unwatched : s.part.unwatched w.addr.toNat) :
    s.takeWrite w = { s with
      part := (s.part.forward w.addr.toNat w.data w.strobes).readCountBlock w
      xfers := addBlock s.xfers w.source false w.addr.toNat .forwarded w.last } := by
  have taken := Part.takeWriteBlock_readCount cls
  rw [Part.forwardWrite_unwatched unwatched] at taken
  exact takeWrite_eq taken

section
variable {s : State} {k : Fin 16} {data : Vector Byte 64} {strobes : BitVec 64} {last : Bool}

/-- A write of the read-count block: forwarded, and offered to the report unit (R190). -/
theorem exec_readCountWrite_forwarded (up : s.resetn = true) (unwatched : s.part.unwatched (s.part.base + 0x40)) :
    exec (.readCountWrite k data strobes last) s
      = .next { s with
          part := (s.part.forward (s.part.base + 0x40) data strobes).readCountBlock
            ⟨k, s.part.readCountAddr, data, strobes, last⟩
          xfers := addBlock s.xfers k false (s.part.base + 0x40) .forwarded last } := by
  rw [← s.part.readCountAddr_toNat] at unwatched ⊢
  rw [exec_readCountWrite, whenUp_up up]
  exact congrArg Host.Outcome.next
    (takeWrite_readCount (w := ⟨k, s.part.readCountAddr, data, strobes, last⟩) s.part.classify_readCountAddr unwatched)

theorem Part.readCountBlock_strobed {p : Part} {a : BitVec 40} (full : strobes.extractLsb' 0 4 = BitVec.allOnes 4) :
    p.readCountBlock ⟨k, a, data, strobes, last⟩ = p.takeReadCount (data[3] ++ data[2] ++ data[1] ++ data[0]) := by
  rw [Part.readCountBlock, if_pos full, readCountField]

theorem Part.readCountBlock_unstrobed {p : Part} {a : BitVec 40} (partly : strobes.extractLsb' 0 4 ≠ BitVec.allOnes 4) :
    p.readCountBlock ⟨k, a, data, strobes, last⟩ = p := if_neg partly

end

/-- The report unit with a read count taken. -/
def ReportUnit.reading (r : ReportUnit) (v : Word) : ReportUnit := { r with read := r.readCount v }

theorem Part.takeReadCount_quiet {p : Part} {v : Word} (lost : p.reports.lost = 0)
    (saturated : p.reports.saturated = false) :
    p.takeReadCount v = (p.setReports (p.reports.reading v)).headerWrite .counts := by
  unfold Part.takeReadCount
  refine if_neg ?_
  rintro ⟨waiting, -⟩
  rw [Part.headerWrite_reports] at waiting
  rcases waiting with some | mark
  · exact some lost
  · exact Bool.false_ne_true (saturated.symm.trans mark)

theorem ReportUnit.readCount_ahead {r : ReportUnit} {v : Word} (h : 0 < (v - r.written).toInt) :
    r.readCount v = r.written := if_pos ((ahead_iff _ _).mpr h)

theorem ReportUnit.readCount_behind {r : ReportUnit} {v : Word} (h : (v - r.written).toInt ≤ 0)
    (old : r.recent < (r.written - v).toNat) : r.readCount v = r.written - BitVec.ofNat 32 r.recent := by
  rw [ReportUnit.readCount, if_neg fun e => absurd ((ahead_iff _ _).mp e) (Int.not_lt.mpr h), if_pos old]

theorem ReportUnit.readCount_inRing {r : ReportUnit} {v : Word} (h : (v - r.written).toInt ≤ 0)
    (inRing : (r.written - v).toNat ≤ r.recent) : r.readCount v = v := by
  rw [ReportUnit.readCount, if_neg fun e => absurd ((ahead_iff _ _).mp e) (Int.not_lt.mpr h),
    if_neg (Nat.not_lt.mpr inRing)]

theorem Part.takeReadCount_quiet_eq {p : Part} {v : Word} (lost : p.reports.lost = 0)
    (saturated : p.reports.saturated = false) :
    p.takeReadCount v
      = { p with reports := p.reports.reading v, mem := (p.takeReadCount v).mem, port := (p.takeReadCount v).port } := by
  rw [Part.takeReadCount_quiet lost saturated]
  apply Part.ext <;> simp

/-- Settles O15: the block is forwarded, and the report unit takes the count where its four bytes are strobed. -/
theorem readCountIsTaken : Obligations.ReadCountIsTaken := by
  refine ⟨fun k data strobes last s v up full value unwatched lost saturated => ?strobed,
    fun k data strobes last s up partly unwatched => ?unstrobed⟩
  case strobed =>
    have run := exec_readCountWrite_forwarded (k := k) (data := data) (strobes := strobes) (last := last) up unwatched
    rw [Part.readCountBlock_strobed full, ← value] at run
    have lost' : (s.part.forward (s.part.base + 0x40) data strobes).reports.lost = 0 := lost
    have part := Part.takeReadCount_quiet_eq (v := v) lost' saturated
    have touches : s.part.Touches [(0x40, 64), headerRange]
        ((s.part.forward (s.part.base + 0x40) data strobes).takeReadCount v) := by
      rw [Part.takeReadCount_quiet lost' saturated]
      exact (((Part.Touches.refl _ _).forward (by simp)).setReports).headerWrite (by simp)
    generalize (s.part.forward (s.part.base + 0x40) data strobes).takeReadCount v = q at run part touches
    have read : q.reports = s.part.reports.reading v := by rw [part]; rfl
    refine ⟨_, run, ?_, ?_, ?_, ?_, touches.kept⟩
    · show { s with part := q, xfers := _ } = _
      rw [part]
      rfl
    · exact fun h => read ▸ ReportUnit.readCount_ahead h
    · exact fun h old => read ▸ ReportUnit.readCount_behind h old
    · exact fun h inRing => read ▸ ReportUnit.readCount_inRing h inRing
  case unstrobed =>
    have run := exec_readCountWrite_forwarded (k := k) (data := data) (strobes := strobes) (last := last) up unwatched
    rw [Part.readCountBlock_unstrobed partly] at run
    exact ⟨_, run, rfl, ((Part.Touches.refl _ _).forward (by simp)).kept⟩

/-- The LOST record, with what it clears (R192). -/
theorem Part.writeLost_reports (p : Part) :
    p.writeLost.reports = { p.reports.writing with lost := 0, saturated := false } := by
  unfold Part.writeLost
  dsimp only
  rw [Part.headerWrite_reports, Part.setReports_reports, Part.writeReport_reports]

theorem Part.writeLost_ring (p : Part) (wf : Memory.wf p.mem) :
    p.writeLost.mem.readBytes (p.base + ringOffset p.reports.written) 64
      = { kind := .lost, tick := p.tick
          subject := .lost p.reports.lost p.reports.saturated p.reports.firstLoss p.reports.lastLoss
          : Report }.bytes p.reports.written := by
  unfold Part.writeLost
  dsimp only
  have cabase := p.writeReport_cabase
    { kind := .lost, tick := p.tick
      subject := .lost p.reports.lost p.reports.saturated p.reports.firstLoss p.reports.lastLoss }
  rw [← p.writeReport_ring _ wf, ← Part.base_congr cabase]
  generalize p.writeReport _ = q
  exact Part.headerWrite_ring (q.setReports _) .counts p.reports.written

theorem Part.Touches.writeLost {ranges : List (Nat × Nat)} {p q : Part} (h : p.Touches ranges q)
    (ring : ringRange q.reports.written ∈ ranges) (inside : headerRange ∈ ranges) : p.Touches ranges q.writeLost := by
  unfold Part.writeLost
  dsimp only
  apply Part.Touches.headerWrite _ inside
  apply Part.Touches.setReports
  exact h.writeReport ring inside

theorem Part.takeReadCount_room {p : Part} {v : Word} (lost : 0 < p.reports.lost)
    (room : (p.reports.written - p.reports.readCount v).toNat < 512) (up : p.sweep = .none) :
    p.takeReadCount v = ((p.setReports (p.reports.reading v)).headerWrite .counts).writeLost := by
  have reports : ((p.setReports (p.reports.reading v)).headerWrite .counts).reports = p.reports.reading v := by simp
  have sweeping : ((p.setReports (p.reports.reading v)).headerWrite .counts).sweeping = false := by
    simp [Part.sweeping, up]
  have some : (p.reports.reading v).lost ≠ 0 := Nat.pos_iff_ne_zero.mp lost
  have unread : (p.reports.reading v).unread < Config.ringEntries := room
  exact if_pos ⟨.inl (reports ▸ some), reports ▸ unread, sweeping⟩

/-- A count that gives room while losses wait (R190, R192). -/
theorem Part.takeReadCount_writesLost {p : Part} {v : Word} (lost : 0 < p.reports.lost) (up : p.sweep = .none)
    (room : (p.reports.written - v).toNat < 512) (inRing : (p.reports.written - v).toNat ≤ p.reports.recent)
    (wf : Memory.wf p.mem) :
    (p.takeReadCount v).reports
        = { p.reports with read := v, written := p.reports.written + 1, recent := satInc 512 p.reports.recent
                           lost := 0, saturated := false }
      ∧ (p.takeReadCount v).mem.readBytes (p.base + ringOffset p.reports.written) 64
        = { kind := .lost, tick := p.tick
            subject := .lost p.reports.lost p.reports.saturated p.reports.firstLoss p.reports.lastLoss
            : Report }.bytes p.reports.written
      ∧ p.Touches p.reportRanges (p.takeReadCount v) := by
  have notAhead : (v - p.reports.written).toInt ≤ 0 := by
    rw [BitVec.toInt_eq_toNat_cond]
    split <;> bv_omega
  have count : p.reports.readCount v = v := ReportUnit.readCount_inRing notAhead inRing
  have reading : p.reports.reading v = { p.reports with read := v } := by rw [ReportUnit.reading, count]
  rw [Part.takeReadCount_room lost (by rw [count]; exact room) up]
  have counted : p.Touches p.reportRanges ((p.setReports (p.reports.reading v)).headerWrite .counts) :=
    ((Part.Touches.refl _ p).setReports).headerWrite (by simp [Part.reportRanges_eq])
  have reports : ((p.setReports (p.reports.reading v)).headerWrite .counts).reports = { p.reports with read := v } := by
    rw [Part.headerWrite_reports, Part.setReports_reports, reading]
  have tick : ((p.setReports (p.reports.reading v)).headerWrite .counts).tick = p.tick := by simp
  generalize (p.setReports (p.reports.reading v)).headerWrite .counts = q at counted reports tick
  refine ⟨?_, ?_, counted.writeLost ?_ ?_⟩
  · rw [q.writeLost_reports, reports]
    rfl
  · have ring := q.writeLost_ring (counted.wf wf)
    rwa [reports, Part.base_congr counted.cabase, tick] at ring
  · rw [reports]
    simp [Part.reportRanges_eq]
  · simp [Part.reportRanges_eq]

/-- Settles O16: the block is forwarded, and the count it writes gives room. -/
theorem lostRecordIsWritten : Obligations.LostRecordIsWritten := by
  intro k data strobes last s v up full value unwatched lost ended room inRing wf
  have run := exec_readCountWrite_forwarded (k := k) (data := data) (strobes := strobes) (last := last) up unwatched
  rw [Part.readCountBlock_strobed full, ← value] at run
  have forwarded : s.part.Touches ((0x40, 64) :: s.part.reportRanges)
      (s.part.forward (s.part.base + 0x40) data strobes) := (Part.Touches.refl _ _).forward (by simp)
  have counted := Part.takeReadCount_writesLost (p := s.part.forward (s.part.base + 0x40) data strobes) (v := v) lost
    ended room inRing (forwarded.wf wf)
  simp only [Part.forward_reports, Part.forward_tick] at counted
  rw [show (s.part.forward (s.part.base + 0x40) data strobes).base = s.part.base from rfl] at counted
  obtain ⟨reports, ring, touches⟩ := counted
  have kept := (forwarded.trans (touches.mono (List.subset_cons_self _ _))).kept
  generalize (s.part.forward (s.part.base + 0x40) data strobes).takeReadCount v = q at run reports ring kept
  exact ⟨_, run, reports, ring, kept⟩

end Sys2Proof.Machine
end

section
/-! SUPPORT. Which tables of the part an operation changes: one lemma for each operation,
in the words of `Part.Only`. -/

namespace Sys2Proof.Machine

/-- The fields of the part. -/
inductive Table
  | cabase | tkdiv | sweep | tick | mem | port | freeReads | reports | params | units | windows | filters | parsers
  | transit | slots | orphans | plates | channels | sets | owners
  deriving DecidableEq

/-- Two parts agree in a field. -/
def Table.Same (p q : Part) : Table → Prop
  | .cabase => q.cabase = p.cabase
  | .tkdiv => q.tkdiv = p.tkdiv
  | .sweep => q.sweep = p.sweep
  | .tick => q.tick = p.tick
  | .mem => q.mem = p.mem
  | .port => q.port = p.port
  | .freeReads => q.freeReads = p.freeReads
  | .reports => q.reports = p.reports
  | .params => q.params = p.params
  | .units => q.units = p.units
  | .windows => q.windows = p.windows
  | .filters => q.filters = p.filters
  | .parsers => q.parsers = p.parsers
  | .transit => q.transit = p.transit
  | .slots => q.slots = p.slots
  | .orphans => q.orphans = p.orphans
  | .plates => q.plates = p.plates
  | .channels => q.channels = p.channels
  | .sets => q.sets = p.sets
  | .owners => q.owners = p.owners

theorem Table.same_refl (p : Part) (x : Table) : x.Same p p := by cases x <;> rfl

theorem Table.same_trans {p q r : Part} {x : Table} (h : x.Same p q) (g : x.Same q r) : x.Same p r := by
  cases x <;> exact Eq.trans g h

/-- The tables listed are all that differs. -/
def Part.Only (changed : List Table) (p q : Part) : Prop := ∀ x : Table, x ∉ changed → x.Same p q

namespace Part.Only

variable {changed : List Table} {p q : Part}

theorem refl (changed : List Table) (p : Part) : p.Only changed p := fun x _ => x.same_refl p

theorem trans {r : Part} (h : p.Only changed q) (g : q.Only changed r) : p.Only changed r :=
  fun x hx => Table.same_trans (h x hx) (g x hx)

theorem mono {more : List Table} (h : p.Only changed q) (sub : changed ⊆ more) : p.Only more q :=
  fun x hx => h x fun c => hx (sub c)

/-- Either of two outcomes. -/
theorem ite {a b : Part} {c : Prop} [Decidable c] (ha : p.Only changed a) (hb : p.Only changed b) :
    p.Only changed (if c then a else b) := by
  split
  · exact ha
  · exact hb

/-- A fold of acts. -/
theorem foldl {β : Type} (h : p.Only changed q) (act : Part → β → Part)
    (hact : ∀ (a : Part) (b : β), a.Only changed (act a b)) (bs : List β) : p.Only changed (bs.foldl act q) :=
  h.trans (foldl_keeps (fun a => q.Only changed a) act (fun a b ha => ha.trans (hact a b)) bs q (refl changed q))

/-- An act for each number. -/
theorem forEach {n : Nat} (h : p.Only changed q) (act : Part → Fin n → Part)
    (hact : ∀ (a : Part) (k : Fin n), a.Only changed (act a k)) : p.Only changed (forEach n act q) :=
  h.foldl act hact (List.finRange n)

variable (h : p.Only changed q)
include h

/-! ## The writers of the tables -/

theorem setSlot {n : Fin 512} {x : Slot} (sub : .slots ∈ changed := by simp) : p.Only changed (q.setSlot n x) := by
  refine h.trans fun y hy => ?_
  cases y
  case slots => exact absurd sub hy
  all_goals rfl

theorem setPlate {n : Fin 64} {x : Plate} (sub : .plates ∈ changed := by simp) : p.Only changed (q.setPlate n x) := by
  refine h.trans fun y hy => ?_
  cases y
  case plates => exact absurd sub hy
  all_goals rfl

theorem setChannel {k : Fin 2} {x : Channel} (sub : .channels ∈ changed := by simp) :
    p.Only changed (q.setChannel k x) := by
  refine h.trans fun y hy => ?_
  cases y
  case channels => exact absurd sub hy
  all_goals rfl

theorem setSet {n : Fin 8} {x : ScreenSet} (sub : .sets ∈ changed := by simp) : p.Only changed (q.setSet n x) := by
  refine h.trans fun y hy => ?_
  cases y
  case sets => exact absurd sub hy
  all_goals rfl

theorem setWindow {n : Fin 16} {x : Window} (sub : .windows ∈ changed := by simp) :
    p.Only changed (q.setWindow n x) := by
  refine h.trans fun y hy => ?_
  cases y
  case windows => exact absurd sub hy
  all_goals rfl

theorem setFilter {n : Fin 16} {x : FilterEntry} (sub : .filters ∈ changed := by simp) :
    p.Only changed (q.setFilter n x) := by
  refine h.trans fun y hy => ?_
  cases y
  case filters => exact absurd sub hy
  all_goals rfl

theorem setParser {k : Fin 4} {x : Parser} (sub : .parsers ∈ changed := by simp) :
    p.Only changed (q.setParser k x) := by
  refine h.trans fun y hy => ?_
  cases y
  case parsers => exact absurd sub hy
  all_goals rfl

theorem setRecord {r : RecordId} {x : CmdUnit} (sub : .units ∈ changed := by simp) :
    p.Only changed (q.setRecord r x) := by
  refine h.trans fun y hy => ?_
  cases y
  case units => exact absurd sub hy
  all_goals rfl

theorem setReports {x : ReportUnit} (sub : .reports ∈ changed := by simp) : p.Only changed (q.setReports x) := by
  refine h.trans fun y hy => ?_
  cases y
  case reports => exact absurd sub hy
  all_goals rfl

theorem setOrphans {x : List Orphan} (sub : .orphans ∈ changed := by simp) : p.Only changed (q.setOrphans x) := by
  refine h.trans fun y hy => ?_
  cases y
  case orphans => exact absurd sub hy
  all_goals rfl

theorem setTransit {x : List Parcel} (sub : .transit ∈ changed := by simp) : p.Only changed (q.setTransit x) := by
  refine h.trans fun y hy => ?_
  cases y
  case transit => exact absurd sub hy
  all_goals rfl

theorem setOwners {x : Vector (Option (Fin 8)) 8} (sub : .owners ∈ changed := by simp) :
    p.Only changed (q.setOwners x) := by
  refine h.trans fun y hy => ?_
  cases y
  case owners => exact absurd sub hy
  all_goals rfl

theorem setParams {x : Params} (sub : .params ∈ changed := by simp) : p.Only changed (q.setParams x) := by
  refine h.trans fun y hy => ?_
  cases y
  case params => exact absurd sub hy
  all_goals rfl

theorem setSweep {x : Sweep} (sub : .sweep ∈ changed := by simp) : p.Only changed (q.setSweep x) := by
  refine h.trans fun y hy => ?_
  cases y
  case sweep => exact absurd sub hy
  all_goals rfl

theorem freeRead (sub : .freeReads ∈ changed := by simp) :
    p.Only changed { q with freeReads := q.freeReads + 1 } := by
  refine h.trans fun y hy => ?_
  cases y
  case freeReads => exact absurd sub hy
  all_goals rfl

theorem ownRead (sub : .port ∈ changed := by simp) : p.Only changed q.ownRead := by
  refine h.trans fun y hy => ?_
  cases y
  case port => exact absurd sub hy
  all_goals rfl

theorem own {w : OwnWrite} {off : Nat} {bs : List Byte} (sub : [.mem, .port] ⊆ changed := by simp) :
    p.Only changed (q.own w off bs) := by
  refine h.trans fun y hy => ?_
  cases y
  case mem => exact absurd (sub (by simp)) hy
  case port => exact absurd (sub (by simp)) hy
  all_goals rfl

theorem forward {a : Nat} {data : Vector Byte 64} {strobes : BitVec 64} (sub : [.mem, .port] ⊆ changed := by simp) :
    p.Only changed (q.forward a data strobes) := by
  refine h.trans fun y hy => ?_
  cases y
  case mem => exact absurd (sub (by simp)) hy
  case port => exact absurd (sub (by simp)) hy
  all_goals rfl

/-! ## Rewrites, results and reports -/

theorem headerWrite {g : HeaderGroup} (sub : [.mem, .port] ⊆ changed := by simp) :
    p.Only changed (q.headerWrite g) := h.own sub

theorem statusWrite {r : RecordId} (sub : [.mem, .port] ⊆ changed := by simp) : p.Only changed (q.statusWrite r) := by
  unfold Part.statusWrite
  split
  · exact h.own sub
  · exact h.own sub

theorem plateStatus {n : Fin 64} (sub : [.mem, .port] ⊆ changed := by simp) : p.Only changed (q.plateStatus n) :=
  h.statusWrite sub

theorem setStage {r : RecordId} {st : CmdStage} (sub : .units ∈ changed := by simp) :
    p.Only changed (q.setStage r st) := h.setRecord sub

theorem finish {r : RecordId} {c : ResultCode} {d : Nat} (sub : [.mem, .port, .units] ⊆ changed := by simp) :
    p.Only changed (q.finish r c d) := by
  have memory : [Table.mem, .port] ⊆ changed := List.Subset.trans (by simp) sub
  unfold Part.finish
  dsimp only
  split
  · exact (h.setRecord (sub (by simp))).headerWrite memory
  · exact (h.setRecord (sub (by simp))).own memory

theorem finishFree {r : RecordId} {c : ResultCode} (sub : [.mem, .port, .units, .freeReads] ⊆ changed := by simp) :
    p.Only changed (q.finishFree r c) :=
  (h.freeRead (sub (by simp))).finish (List.Subset.trans (by simp) sub)

section
variable (sub : [.mem, .port, .reports] ⊆ changed)
include sub

theorem lose : p.Only changed q.lose :=
  (h.setReports (sub (by simp))).headerWrite (List.Subset.trans (by simp) sub)

theorem writeReport {r : Report} : p.Only changed (q.writeReport r) := by
  have memory : [Table.mem, .port] ⊆ changed := List.Subset.trans (by simp) sub
  unfold Part.writeReport
  dsimp only
  apply headerWrite _ memory
  exact setReports (h.own memory) (sub (by simp))

end

theorem takeReport {r : Report} (sub : [.mem, .port, .reports] ⊆ changed := by simp) :
    p.Only changed (q.takeReport r) :=
  ite h (ite (ite (h.setReports (sub (by simp))) (h.lose sub)) (ite (h.lose sub) (h.writeReport sub)))

theorem raise {k : ReportKind} {x : Subject} (sub : [.mem, .port, .reports] ⊆ changed := by simp) :
    p.Only changed (q.raise k x) := h.takeReport sub

/-! ## Slots -/

theorem mirrorWrite {n : Fin 512} {record : List Byte} {body : List Nat} (sub : [.mem, .port] ⊆ changed := by simp) :
    p.Only changed (q.mirrorWrite n record body) := by
  have blocks : p.Only changed (body.foldl (fun p b => p.mirrorBlock n record b)
      (q.mirrorBlock n record (mirrorBlocks - 1))) :=
    (h.own sub).foldl _ (fun a b => (refl changed a).own sub) body
  exact blocks.own sub

theorem changeSlot {n : Fin 512} {f : Slot → Slot} (sub : [.mem, .port, .slots] ⊆ changed := by simp) :
    p.Only changed (q.changeSlot n f) :=
  (h.setSlot (sub (by simp))).mirrorWrite (List.Subset.trans (by simp) sub)

/-! ## Channels and parsers -/

theorem changePlate {n : Fin 64} {f : Plate → Plate} (sub : .plates ∈ changed := by simp) :
    p.Only changed (q.changePlate n f) := h.setPlate sub

theorem changeChannel {k : Fin 2} {f : Channel → Channel} (sub : [.mem, .port, .channels] ⊆ changed := by simp) :
    p.Only changed (q.changeChannel k f) :=
  ite ((h.setChannel (sub (by simp))).headerWrite (List.Subset.trans (by simp) sub))
    (h.setChannel (sub (by simp)))

theorem changeParser {k : Fin 4} {f : Parser → Parser} (sub : [.mem, .port, .parsers] ⊆ changed := by simp) :
    p.Only changed (q.changeParser k f) :=
  (h.setParser (sub (by simp))).headerWrite (List.Subset.trans (by simp) sub)

end Part.Only

/-! ## What follows from the tables that differ -/

/-- A part with the listed fields of another. -/
def Part.pick (changed : List Table) (p q : Part) : Part where
  cabase := if .cabase ∈ changed then q.cabase else p.cabase
  tkdiv := if .tkdiv ∈ changed then q.tkdiv else p.tkdiv
  sweep := if .sweep ∈ changed then q.sweep else p.sweep
  tick := if .tick ∈ changed then q.tick else p.tick
  mem := if .mem ∈ changed then q.mem else p.mem
  port := if .port ∈ changed then q.port else p.port
  freeReads := if .freeReads ∈ changed then q.freeReads else p.freeReads
  reports := if .reports ∈ changed then q.reports else p.reports
  params := if .params ∈ changed then q.params else p.params
  units := if .units ∈ changed then q.units else p.units
  windows := if .windows ∈ changed then q.windows else p.windows
  filters := if .filters ∈ changed then q.filters else p.filters
  parsers := if .parsers ∈ changed then q.parsers else p.parsers
  transit := if .transit ∈ changed then q.transit else p.transit
  slots := if .slots ∈ changed then q.slots else p.slots
  orphans := if .orphans ∈ changed then q.orphans else p.orphans
  plates := if .plates ∈ changed then q.plates else p.plates
  channels := if .channels ∈ changed then q.channels else p.channels
  sets := if .sets ∈ changed then q.sets else p.sets
  owners := if .owners ∈ changed then q.owners else p.owners

/-- The part as it was, but for the listed fields. -/
theorem Part.Only.eq_pick {changed : List Table} {p q : Part} (h : p.Only changed q) : q = p.pick changed q := by
  apply Part.ext
  all_goals
    dsimp only [Part.pick]
    split
    · rfl
    · exact h _ ‹_›

/-- A report is taken by the parameters, the sweep, the tick and the report unit. -/
theorem Part.takeReport_reports_congr {p q : Part} (params : q.params = p.params) (sweep : q.sweep = p.sweep)
    (tick : q.tick = p.tick) (reports : q.reports = p.reports) (r : Report) :
    (q.takeReport r).reports = (p.takeReport r).reports := by
  unfold Part.takeReport Part.sweeping
  rw [params, sweep, reports]
  split
  · exact reports
  · split
    · split
      · rfl
      · rw [Part.lose_reports, Part.lose_reports, reports, tick]
    · split
      · rw [Part.lose_reports, Part.lose_reports, reports, tick]
      · rw [Part.writeReport_reports, Part.writeReport_reports, reports]

/-- What the taking of a report looks at is unchanged. -/
structure Part.Quiet (p q : Part) : Prop where
  cabase : q.cabase = p.cabase
  params : q.params = p.params
  sweep : q.sweep = p.sweep
  tick : q.tick = p.tick
  reports : q.reports = p.reports

theorem Part.Only.quiet {changed : List Table} {p q : Part} (h : p.Only changed q)
    (others : ∀ x ∈ [Table.cabase, .params, .sweep, .tick, .reports], x ∉ changed := by simp) : p.Quiet q :=
  ⟨h _ (others .cabase (by simp)), h _ (others .params (by simp)), h _ (others .sweep (by simp)),
    h _ (others .tick (by simp)), h _ (others .reports (by simp))⟩

section
variable {p q r : Part} {kind : ReportKind} {x : Subject}

theorem Part.Quiet.after (h : p.Quiet q) : q.after kind x = p.after kind x := by
  unfold Part.after
  rw [h.tick]
  exact Part.takeReport_reports_congr h.params h.sweep h.tick h.reports _

theorem Part.Quiet.records (h : p.Quiet q) (wf : Memory.wf p.mem → Memory.wf q.mem) (told : q.records r kind x) :
    p.records r kind x := by
  intro passes up room hwf
  have ring := told (by rw [h.params]; exact passes) (by rw [h.sweep]; exact up) (by rw [h.reports]; exact room)
      (wf hwf)
  rwa [Part.base_congr h.cabase, h.reports, h.tick] at ring

theorem Part.Quiet.tells (h : p.Quiet q) (wf : Memory.wf p.mem → Memory.wf q.mem) (told : q.tells r kind x) :
    p.tells r kind x := by
  obtain ⟨reports, ring⟩ := told
  exact ⟨reports.trans h.after, h.records wf ring⟩

end

/-! ## Ring entries of other numbers -/

/-- Bytes apart from every range touched read as before. -/
theorem Part.Touches.readBytes {ranges : List (Nat × Nat)} {p q : Part} (h : p.Touches ranges q) {off n : Nat}
    (apart : ∀ x ∈ ranges, off + n ≤ x.1 ∨ x.1 + x.2 ≤ off) :
    q.mem.readBytes (p.base + off) n = p.mem.readBytes (p.base + off) n := by
  unfold Memory.readBytes
  refine List.map_congr_left fun i hi => h.kept _ fun x hx => ?_
  have inside := List.mem_range.mp hi
  have := apart x hx
  omega

theorem ringOffset_apart {a b : Word} (h : a.toNat % 512 ≠ b.toNat % 512) :
    ringOffset a + 64 ≤ ringOffset b ∨ ringOffset b + 64 ≤ ringOffset a := by
  simp only [ringOffset, Config.offReportRing, Config.ringEntries]
  omega

theorem ringOffset_apart_next (a : Word) :
    ringOffset a + 64 ≤ ringOffset (a + 1) ∨ ringOffset (a + 1) + 64 ≤ ringOffset a := by
  apply ringOffset_apart
  bv_omega

theorem ringOffset_apart_headerRange (a : Word) : headerRange.1 + headerRange.2 ≤ ringOffset a := by
  simp only [ringOffset, headerRange, Config.offReportRing, Config.offStatusHeader]
  omega

theorem ringOffset_apart_resultRange (a : Word) (r : RecordId) :
    (resultRange r).1 + (resultRange r).2 ≤ ringOffset a := by
  cases r with
  | header =>
    simp only [resultRange, RecordId.statusOffset, ringOffset, Config.offStatusHeader, Config.offReportRing]
    omega
  | window n =>
    simp only [resultRange, RecordId.statusOffset, ringOffset, Config.offWindowStatus, Config.offReportRing]
    omega
  | filter n =>
    simp only [resultRange, RecordId.statusOffset, ringOffset, Config.offFilterStatus, Config.offReportRing]
    omega
  | screenSet n =>
    simp only [resultRange, RecordId.statusOffset, ringOffset, Config.offSetStatus, Config.offReportRing]
    omega
  | plate n =>
    simp only [resultRange, RecordId.statusOffset, ringOffset, Config.offPlateStatus, Config.offReportRing]
    omega
  | directory =>
    simp only [resultRange, RecordId.statusOffset, ringOffset, Config.offDirectoryResult, Config.offReportRing]
    omega

/-- The reports of the part after one that is written. -/
theorem Part.after_written {p : Part} {kind : ReportKind} {x : Subject} (passes : p.params.suppressed kind.cls = false)
    (up : p.sweep = .none) (room : p.reports.unread < 512) : p.after kind x = p.reports.writing := by
  unfold Part.after
  rw [p.takeReport_written _ passes (by simp [Part.sweeping, up]) room, Part.writeReport_reports]

end Sys2Proof.Machine
end

section
/-! SUPPORT. Parcel intake (chapter 1): the filter's decision, the start, the payload and the finish of a parcel. -/

namespace Sys2Proof.Machine

/-! ## Searches for the lowest number -/

/-- A search of a table finds the lowest number whose entry meets the test. -/
theorem findNumbered_lowest {α : Type} {n : Nat} {v : Vector α n} {test : α → Bool} {i : Fin n} (hit : test v[i] = true)
    (below : ∀ j : Fin n, j < i → test v[j] = false) :
    (((numbered v).find? fun x => test x.2).map fun x => x.1) = some i := by
  cases found : (numbered v).find? fun x => test x.2 with
  | none =>
    have missed := List.find?_eq_none.mp found _ (mem_numbered v i)
    exact absurd hit missed
  | some x =>
    obtain ⟨meets, before, after, list, first⟩ := List.find?_eq_some_iff_append.mp found
    have entry : x.2 = v[x.1] := numbered_get v (list ▸ List.mem_append_right _ List.mem_cons_self)
    have sorted : (numbered v).Pairwise fun a b => a.1 < b.1 := by
      rw [numbered_eq]
      exact (List.pairwise_lt_finRange n).map _ fun a b h => h
    rw [list, List.pairwise_append] at sorted
    have notBelow : ¬ x.1 < i := fun lower => by
      have := below x.1 lower
      rw [← entry] at this
      simp [this] at meets
    have notAbove : ¬ i < x.1 := fun lower => by
      have mem := mem_numbered v i
      rw [list] at mem
      rcases List.mem_append.mp mem with inBefore | inRest
      · have missed := first _ inBefore
        rw [hit] at missed
        exact absurd missed Bool.false_ne_true
      · rcases List.mem_cons.mp inRest with same | inAfter
        · exact absurd lower (by rw [← same]; exact lt_irrefl _)
        · obtain ⟨-, sortedRest, -⟩ := sorted
          exact absurd ((List.pairwise_cons.mp sortedRest).1 _ inAfter) (lt_asymm lower)
    exact congrArg some (le_antisymm (not_lt.mp notAbove) (not_lt.mp notBelow))

theorem findNumbered_none_of {α : Type} {n : Nat} {v : Vector α n} {test : α → Bool}
    (none : ∀ i : Fin n, test v[i] = false) : (((numbered v).find? fun x => test x.2).map fun x => x.1)
      = Option.none := by
  rw [Option.map_eq_none_iff, List.find?_eq_none]
  intro x hx
  rw [numbered_get v hx, none x.1]
  exact Bool.false_ne_true

/-! ## The filter's decision (R15) -/

theorem FilterAction.decision_eq (a : FilterAction) (n : Nat) :
    a.decision n = if a = .accept then Decision.accept n else Decision.reject n := by cases a <;> rfl

theorem Part.filterDecide_hit {p : Part} {h : Header} {i : Fin 16} (hit : p.filterHit h = some i) :
    p.filterDecide h
      = ((p.setFilter i { p.filters[i] with hits := satInc Config.max32 p.filters[i].hits }).statusWrite (.filter i),
        p.filters[i].action.decision i.val) := by
  rw [Part.filterDecide, hit]

theorem Part.filterDecide_default {p : Part} {h : Header} (miss : p.filterHit h = none) :
    p.filterDecide h = (p, p.params.defaultAction.decision 16) := by
  rw [Part.filterDecide, miss]

/-- Settles O22. -/
theorem filterDecides : Obligations.FilterDecides := by
  refine fun s h => ⟨fun i enabled hits below => ?_, fun none => ?_⟩
  · have hit : s.part.filterHit h = some i := by
      refine findNumbered_lowest (test := fun f : FilterEntry => f.enable && f.matches_ h)
        (Bool.and_eq_true_iff.mpr ⟨enabled, hits⟩) fun j lower => ?_
      rcases below j lower with off | other
      · exact Bool.and_eq_false_iff.mpr (.inl off)
      · exact Bool.and_eq_false_iff.mpr (.inr other)
    rw [Part.filterDecide_hit hit]
    refine ⟨FilterAction.decision_eq _ _, ?_⟩
    dsimp only
    rw [Part.statusWrite_filters]
    rfl
  · have miss : s.part.filterHit h = Option.none := by
      refine findNumbered_none_of (test := fun f : FilterEntry => f.enable && f.matches_ h) fun i => ?_
      rcases none i with off | other
      · exact Bool.and_eq_false_iff.mpr (.inl off)
      · exact Bool.and_eq_false_iff.mpr (.inr other)
    rw [Part.filterDecide_default miss, FilterAction.decision_eq]

end Sys2Proof.Machine
end

section
/-! SUPPORT. The blocks of an intake window at the parser of their stream (R4 to R13). -/

namespace Sys2Proof.Machine

/-! ## What a header starts (R6) -/

/-- The sequence check counts a late header or sets the expected sequence, and changes nothing else. -/
theorem Parser.checkSequence_eq (x : Parser) (s : Word) :
    x.checkSequence s
      = { x with sequence := (x.checkSequence s).sequence, late := (x.checkSequence s).late } := by
  unfold Parser.checkSequence
  split
  · rfl
  · rfl
  · rfl

theorem Parser.checkSequence_resyncs (x : Parser) (r : Nat) (s : Word) :
    ({ x with resyncs := r }.checkSequence s).sequence = (x.checkSequence s).sequence := by
  unfold Parser.checkSequence
  dsimp only
  split
  · rfl
  · rfl
  · rfl

namespace Part

theorem filterDecide_touches {ranges : List (Nat × Nat)} (p : Part) (h : Header)
    (inside : ∀ i : Fin 16, resultRange (.filter i) ∈ ranges) : p.Touches ranges (p.filterDecide h).1 := by
  unfold Part.filterDecide
  split
  · exact Touches.refl _ p
  · exact (Touches.setFilter (Touches.refl _ p)).statusWrite (inside _)

theorem filterDecide_only (p : Part) (h : Header) : p.Only [.mem, .port, .filters] (p.filterDecide h).1 := by
  unfold Part.filterDecide
  split
  · exact Only.refl _ p
  · exact ((Only.refl _ p).setFilter).statusWrite

theorem decideHeader_fst (p : Part) (h : Header) (f : Option FieldFault) :
    (p.decideHeader h f).1 = p ∨ (p.decideHeader h f).1 = (p.filterDecide h).1 := by
  unfold Part.decideHeader
  split
  · exact .inl rfl
  · split
    · rename_i e
      exact .inr (by rw [e])
    · rename_i e
      exact .inr (by rw [e])

theorem decideHeader_touches {ranges : List (Nat × Nat)} (p : Part) (h : Header) (f : Option FieldFault)
    (inside : ∀ i : Fin 16, resultRange (.filter i) ∈ ranges) : p.Touches ranges (p.decideHeader h f).1 := by
  rcases p.decideHeader_fst h f with e | e
  · rw [e]
    exact Touches.refl _ p
  · rw [e]
    exact p.filterDecide_touches h inside

theorem decideHeader_only (p : Part) (h : Header) (f : Option FieldFault) :
    p.Only [.mem, .port, .filters] (p.decideHeader h f).1 := by
  rcases p.decideHeader_fst h f with e | e
  · rw [e]
    exact Only.refl _ p
  · rw [e]
    exact p.filterDecide_only h

theorem reportGap_touches {ranges : List (Nat × Nat)} (p : Part) (k : Fin 4) (c : SequenceCheck) (a : Nat)
    (ring : ringRange p.reports.written ∈ ranges) (inside : headerRange ∈ ranges) :
    p.Touches ranges (p.reportGap k c a) := by
  unfold Part.reportGap
  split
  · exact Touches.refl _ p
  · exact Touches.refl _ p
  · exact (Touches.refl _ p).raise ring inside

theorem reportGap_only (p : Part) (k : Fin 4) (c : SequenceCheck) (a : Nat) :
    p.Only [.mem, .port, .reports] (p.reportGap k c a) := by
  unfold Part.reportGap
  split
  · exact Only.refl _ p
  · exact Only.refl _ p
  · exact (Only.refl _ p).raise

/-- The bytes that the start of a parcel may touch. -/
def startRanges (p : Part) : List (Nat × Nat) :=
  ringRange p.reports.written :: headerRange :: (List.finRange 16).map fun i => resultRange (.filter i)

/-- The parser's checks of a header's sequence and its place (R4, R5, R13). -/
def checkedParser (x : Parser) (h : Header) (resync : Bool) : Parser :=
  { x with resyncs := if resync then satInc Config.max32 x.resyncs else x.resyncs }.checkSequence h.sequence

theorem changeParser_parsers (p : Part) (k : Fin 4) (f : Parser → Parser) :
    (p.changeParser k f).parsers = p.parsers.set k (f p.parsers[k]) := by
  unfold Part.changeParser
  rw [Part.headerWrite_parsers]
  rfl

/-- A header with payload has started a parcel (R6). -/
structure Started (p q : Part) (b : ParserBlock) (h : Header) (resync : Bool) : Prop where
  state : q.parsers[b.stream].state = .payload
  expected : q.parsers[b.stream].expected = b.successor b.index
  remaining : q.parsers[b.stream].remaining = h.length
  crc : q.parsers[b.stream].crc = 0xFFFFFFFF
  header : q.parsers[b.stream].header = some h
  fieldFault : q.parsers[b.stream].fieldFault = h.fieldFault b.count
  capture : q.parsers[b.stream].capture = []
  sequence : q.parsers[b.stream].sequence = (p.parsers[b.stream].checkSequence h.sequence).sequence
  resyncs : q.parsers[b.stream].resyncs
    = if resync then satInc Config.max32 p.parsers[b.stream].resyncs else p.parsers[b.stream].resyncs
  strays : q.parsers[b.stream].strays = p.parsers[b.stream].strays
  filed : q.parsers[b.stream].filed = p.parsers[b.stream].filed
  rejected : q.parsers[b.stream].rejected = p.parsers[b.stream].rejected
  others : ∀ j : Fin 4, j ≠ b.stream → q.parsers[j] = p.parsers[j]
  only : p.Only [.mem, .port, .parsers, .reports, .filters] q
  touches : p.Touches p.startRanges q

theorem started_of_parsers {p q : Part} {b : ParserBlock} {h : Header} {resync : Bool} {d : Decision} {v : Validation}
    (payload : h.length ≠ 0)
    (parsers : q.parsers = p.parsers.set b.stream
      ((checkedParser p.parsers[b.stream] h resync).load h (h.fieldFault b.count) d v (b.successor b.index)))
    (only : p.Only [.mem, .port, .parsers, .reports, .filters] q) (touches : p.Touches p.startRanges q) :
    p.Started q b h resync := by
  have own : q.parsers[b.stream]
      = (checkedParser p.parsers[b.stream] h resync).load h (h.fieldFault b.count) d v (b.successor b.index) := by
    rw [parsers]
    exact Vector.getElem_set_self b.stream.isLt
  have checked := Parser.checkSequence_eq
    { p.parsers[b.stream] with
      resyncs := if resync then satInc Config.max32 p.parsers[b.stream].resyncs else p.parsers[b.stream].resyncs }
    h.sequence
  rw [checkedParser, Parser.load, checked, if_neg payload] at own
  constructor
  case sequence =>
    rw [own]
    exact Parser.checkSequence_resyncs _ _ _
  case others =>
    intro j other
    rw [parsers]
    exact Vector.getElem_set_ne b.stream.isLt j.isLt fun e => other (Fin.ext e.symm)
  case only => exact only
  case touches => exact touches
  all_goals rw [own]

theorem startParcel_started (p : Part) (b : ParserBlock) (resync : Bool) (h : Header)
    (header : parseHeader b.bytes b.index = h) (payload : h.length ≠ 0) :
      p.Started (p.startParcel b resync) b h resync := by
  unfold Part.startParcel
  dsimp only
  rw [header, if_neg payload]
  set a := p.changeParser b.stream fun x =>
    { x with resyncs := if resync then satInc Config.max32 x.resyncs else x.resyncs }.checkSequence h.sequence with ha
  have aOnly : p.Only [.mem, .port, .parsers] a := (Only.refl _ p).changeParser
  have aTouches : p.Touches p.startRanges a := (Touches.refl _ p).changeParser (by simp [startRanges])
  have aParsers : a.parsers = p.parsers.set b.stream (checkedParser p.parsers[b.stream] h resync) :=
    p.changeParser_parsers _ _
  have aReports : a.reports = p.reports := aOnly .reports (by simp)
  clear_value a
  generalize sequenceCheck p.parsers[b.stream].sequence h.sequence = check
  have gOnly := a.reportGap_only b.stream check b.addr
  have gTouches : a.Touches p.startRanges (a.reportGap b.stream check b.addr) :=
    a.reportGap_touches b.stream check b.addr (by simp [startRanges, aReports]) (by simp [startRanges])
  generalize a.reportGap b.stream check b.addr = g at gOnly gTouches
  have dOnly := g.decideHeader_only h (h.fieldFault b.count)
  have dTouches : g.Touches p.startRanges (g.decideHeader h (h.fieldFault b.count)).1 :=
    g.decideHeader_touches h (h.fieldFault b.count) (by simp [startRanges])
  generalize g.decideHeader h (h.fieldFault b.count) = d at dOnly dTouches
  have dParsers : d.1.parsers = a.parsers := (dOnly .parsers (by simp)).trans (gOnly .parsers (by simp))
  refine started_of_parsers (d := d.2.1) (v := d.2.2) payload ?_ ?_ ?_
  · rw [changeParser_parsers, dParsers, aParsers, Vector.set_set]
    congr 2
    exact Vector.getElem_set_self b.stream.isLt
  · have others : p.Only [.mem, .port, .parsers, .reports, .filters] d.1 :=
      ((aOnly.mono (by simp)).trans (gOnly.mono (by simp))).trans (dOnly.mono (by simp))
    exact others.changeParser
  · exact (aTouches.trans (gTouches.trans dTouches)).changeParser (by simp [startRanges])

/-! ## Blocks taken in SEEK and HUNT (R4, R5) -/

/-- A valid header is found in its place: in SEEK at E. -/
def inPlace (p : Part) (b : ParserBlock) : Bool :=
  p.parsers[b.stream].state == .seek && b.index == p.parsers[b.stream].expected

theorem inPlace_iff (p : Part) (b : ParserBlock) :
    p.inPlace b = true ↔ p.parsers[b.stream].state = .seek ∧ b.index = p.parsers[b.stream].expected := by
  rw [inPlace, Bool.and_eq_true, beq_iff_eq, beq_iff_eq]

section
variable {p : Part} {b : ParserBlock}
  (searching : p.parsers[b.stream].state = .seek ∨ p.parsers[b.stream].state = .hunt)
include searching

theorem parserBlock_header (valid : headerFault b.bytes b.strobes = none) :
    p.parserBlock b = p.startParcel b (!p.inPlace b) := by
  rcases searching with seek | hunt
  · rw [Part.parserBlock, seek]
    dsimp only
    rw [Part.seekBlock, valid]
    rw [inPlace, seek]
    rfl
  · rw [Part.parserBlock, hunt]
    dsimp only
    rw [Part.huntBlock, valid]
    rw [inPlace, hunt]
    rfl

variable {fault : HeaderFault} (invalid : headerFault b.bytes b.strobes = some fault)
include invalid

omit searching in
/-- A bad header at E of a parser in SEEK (R4). -/
theorem parserBlock_bad (place : p.inPlace b = true) :
    p.parserBlock b = (p.changeParser b.stream fun x => { x with state := .hunt }).raise .headerBad
      (.page { stream := b.stream.val, cause := fault.code, addr := b.addr, flags := 1 }) := by
  obtain ⟨seek, expected⟩ := (p.inPlace_iff b).mp place
  rw [Part.parserBlock, seek]
  dsimp only
  rw [Part.seekBlock, invalid]
  exact if_pos expected

/-- A block that is no header (R4, R5). -/
theorem parserBlock_stray (place : p.inPlace b = false) : p.parserBlock b = p.stray b.stream := by
  rcases searching with seek | hunt
  · rw [Part.parserBlock, seek]
    dsimp only
    rw [Part.seekBlock, invalid]
    refine if_neg fun expected => ?_
    exact absurd ((p.inPlace_iff b).mpr ⟨seek, expected⟩) (by rw [place]; exact Bool.false_ne_true)
  · rw [Part.parserBlock, hunt]
    dsimp only
    rw [Part.huntBlock, invalid]

end

theorem stray_parsers (p : Part) (k : Fin 4) :
    (p.stray k).parsers
      = p.parsers.set k { p.parsers[k] with strays := satInc Config.max32 p.parsers[k].strays } :=
  p.changeParser_parsers _ _

theorem stray_only (p : Part) (k : Fin 4) : p.Only [.mem, .port, .parsers] (p.stray k) :=
  (Only.refl _ p).changeParser

/-- A block of an intake window that no extent meets goes to the parser. -/
theorem takeWriteBlock_parser {p : Part} {w : WriteBlock} {n : Fin 16} (cls : p.classify w.addr.toNat = .intake n)
    (unwatched : p.unwatched w.addr.toNat) :
    p.takeWriteBlock w
      = ((p.forward w.addr.toNat w.data w.strobes).parserBlock (p.windows[n].parserBlock w), .forwarded) := by
  rw [Part.takeWriteBlock_intake cls, Part.writeIntake, Part.forwardWrite_unwatched unwatched]

theorem forward_only (p : Part) (a : Nat) (data : Vector Byte 64) (strobes : BitVec 64) :
    p.Only [.mem, .port] (p.forward a data strobes) := (Only.refl _ p).forward

end Part

/-- A write block of an intake window that no extent meets: what the parser makes of it, and the bytes outside the block
and the part-owned lines. -/
theorem exec_intakeBlock {w : WriteBlock} {n : Fin 16} {s : State} {q : Part} (up : s.resetn = true)
    (aligned : w.addr.toNat % 64 = 0) (cls : s.part.classify w.addr.toNat = .intake n)
    (unwatched : s.part.unwatched w.addr.toNat)
    (made : (s.part.forward w.addr.toNat w.data w.strobes).parserBlock (s.part.windows[n].parserBlock w) = q) :
    exec (.upstreamWriteBlock w) s
        = .next { s with part := q, xfers := addBlock s.xfers w.source false w.addr.toNat .forwarded w.last }
      ∧ ∀ a, a < w.addr.toNat ∨ w.addr.toNat + 64 ≤ a → ¬ s.part.ownedAt a → q.mem.read a = s.part.mem.read a := by
  have taken : s.part.takeWriteBlock w = (q, .forwarded) := by rw [Part.takeWriteBlock_parser cls unwatched, made]
  refine ⟨exec_upstreamWriteBlock_taken up aligned taken, fun a outside host => ?_⟩
  have kept := s.part.takeWriteBlock_owned w a host outside
  rwa [taken] at kept

/-- A part's equation as its state's. -/
theorem State.part_congr {s : State} {p q : Part} {xfers : List Xfer} (h : p = q) :
    ({ s with part := p, xfers := xfers } : State) = { s with part := q, xfers := xfers } := by rw [h]

theorem Vector.set_other {α : Type} {n : Nat} {v : Vector α n} {k j : Fin n} {x : α} (h : j ≠ k) :
    (v.set k x)[j] = v[j] :=
  Vector.getElem_set_ne k.isLt j.isLt fun e => h (Fin.ext e.symm)

theorem Vector.set_same {α : Type} {n : Nat} {v : Vector α n} {k : Fin n} {x : α} : (v.set k x)[k] = x :=
  Vector.getElem_set_self k.isLt

/-- Settles O23: the block is forwarded, and the parser finds a header in it or none. -/
theorem headerStartsAParcel : Obligations.HeaderStartsAParcel := by
  refine ⟨fun w n k s i h up aligned cls stream unwatched searching index valid header payload => ?header,
    fun w n k s i fault up aligned cls stream unwatched searching index invalid => ?none⟩
  case header =>
    subst stream index
    have made := Part.parserBlock_header (p := s.part.forward w.addr.toNat w.data w.strobes)
      (b := s.part.windows[n].parserBlock w) searching valid
    have started := Part.startParcel_started (s.part.forward w.addr.toNat w.data w.strobes)
      (s.part.windows[n].parserBlock w) (!(s.part.forward w.addr.toNat w.data w.strobes).inPlace
        (s.part.windows[n].parserBlock w)) h header.symm payload
    rw [← made] at started
    have only := (s.part.forward_only w.addr.toNat w.data w.strobes).mono
      (more := [.mem, .port, .parsers, .reports, .filters]) (by simp) |>.trans started.only
    obtain ⟨run, memory⟩ := exec_intakeBlock up aligned cls unwatched rfl
    have place := Part.inPlace_iff (s.part.forward w.addr.toNat w.data w.strobes) (s.part.windows[n].parserBlock w)
    generalize (s.part.forward w.addr.toNat w.data w.strobes).parserBlock (s.part.windows[n].parserBlock w) = q
      at started only run memory
    refine ⟨_, run, started.state, started.expected, started.remaining, started.crc, started.header,
      started.fieldFault, started.capture, started.sequence, ?_, started.strays, started.filed, started.rejected,
      started.others, State.part_congr only.eq_pick, memory⟩
    refine started.resyncs.trans ?_
    generalize (s.part.forward w.addr.toNat w.data w.strobes).inPlace _ = found at place
    cases found with
    | true => exact (if_pos (place.mp rfl)).symm
    | false => exact (if_neg fun h => Bool.false_ne_true (place.mpr h)).symm
  case none =>
    subst stream index
    obtain ⟨run, memory⟩ := exec_intakeBlock up aligned cls unwatched rfl
    have forwarded := s.part.forward_only w.addr.toNat w.data w.strobes
    have place := Part.inPlace_iff (s.part.forward w.addr.toNat w.data w.strobes) (s.part.windows[n].parserBlock w)
    cases found : (s.part.forward w.addr.toNat w.data w.strobes).inPlace (s.part.windows[n].parserBlock w) with
    | true =>
      have bad := Part.parserBlock_bad (b := s.part.windows[n].parserBlock w) invalid found
      have hunted := (s.part.forward w.addr.toNat w.data w.strobes).changeParser_parsers
        (s.part.windows[n].parserBlock w).stream fun x => { x with state := .hunt }
      have hunting : s.part.Only [.mem, .port, .parsers] ((s.part.forward w.addr.toNat w.data w.strobes).changeParser
        (s.part.windows[n].parserBlock w).stream fun x => { x with state := .hunt }) :=
          (forwarded.mono (by simp)).changeParser
      have wf : Memory.wf s.part.mem → Memory.wf ((s.part.forward w.addr.toNat w.data w.strobes).changeParser
        (s.part.windows[n].parserBlock w).stream fun x => { x with state := .hunt }).mem := fun wf =>
          ((Part.Touches.refl [headerRange] _).changeParser (by simp)).wf (Memory.wf_writeStrobed _ _ _ _ wf)
      generalize (s.part.forward w.addr.toNat w.data w.strobes).changeParser _ _ = a at bad hunted hunting wf
      rw [bad] at run memory
      refine ⟨_, run, fun _ => ⟨(Part.raise_parsers a _ _).trans hunted, hunting.quiet.tells wf (a.raise_tells _ _)⟩,
        fun other => ?_, State.part_congr ?_, memory⟩
      · exact absurd (place.mp found) other
      · exact ((hunting.mono (more := [.mem, .port, .parsers, .reports]) (by simp)).raise).eq_pick
    | false =>
      have stray := Part.parserBlock_stray (p := s.part.forward w.addr.toNat w.data w.strobes)
        (b := s.part.windows[n].parserBlock w) searching invalid found
      have parsers := Part.stray_parsers (s.part.forward w.addr.toNat w.data w.strobes)
        (s.part.windows[n].parserBlock w).stream
      have only := (forwarded.mono (by simp)).trans (Part.stray_only (s.part.forward w.addr.toNat w.data w.strobes)
        (s.part.windows[n].parserBlock w).stream)
      rw [stray] at run memory
      generalize (s.part.forward w.addr.toNat w.data w.strobes).stray (s.part.windows[n].parserBlock w).stream = q
        at only run memory parsers
      refine ⟨_, run, fun bad => ?_, fun _ => ⟨parsers, only .reports (by simp)⟩,
        State.part_congr (only.mono (more := [.mem, .port, .parsers, .reports]) (by simp)).eq_pick, memory⟩
      exact absurd (place.mpr bad) (by rw [found]; exact Bool.false_ne_true)

end Sys2Proof.Machine
end

section
/-! SUPPORT. The blocks of a parser in PAYLOAD: consumed, the parcel broken, the parcel finished (R7, R8, R9). -/

namespace Sys2Proof.Machine

/-- Payload bytes reach the running CRC, the validator with its verdict, and the capture (R7). -/
theorem Parser.consume_eq (x : Parser) (bytes : List Byte) (next : Nat) :
    x.consume bytes next
      = { x with
          crc := crcRun x.crc (bytes.take (min 64 x.remaining))
          remaining := x.remaining - min 64 x.remaining
          expected := next
          verdict := (x.consume bytes next).verdict
          validator := (x.consume bytes next).validator
          capture := (x.consume bytes next).capture } := by
  unfold Parser.consume Parser.validate
  dsimp only
  cases x.validator with
  | none => rfl
  | some v => rfl

/-- A full block that does not end the parcel (R7). -/
theorem Parser.consume_more (x : Parser) {bytes : List Byte} (next : Nat) (size : bytes.length = 64)
    (more : 64 < x.remaining) :
    x.consume bytes next
      = { x with
          crc := crcRun x.crc bytes
          remaining := x.remaining - 64
          expected := next
          verdict := (x.consume bytes next).verdict
          validator := (x.consume bytes next).validator
          capture := (x.consume bytes next).capture } := by
  have all : bytes.take (min 64 x.remaining) = bytes := List.take_of_length_le (by omega)
  have least : min 64 x.remaining = 64 := by omega
  have eq := x.consume_eq bytes next
  rw [all, least] at eq
  exact eq

theorem ParserBlock.fullStrobe_iff (b : ParserBlock) : b.fullStrobe = true ↔ b.strobes = BitVec.allOnes 64 := beq_iff_eq

namespace Part

section
variable {p : Part} {b : ParserBlock} (payload : p.parsers[b.stream].state = .payload)
include payload

section
variable (atE : b.index = p.parsers[b.stream].expected) (full : b.strobes = BitVec.allOnes 64)
include atE full

theorem parserBlock_taken :
    p.parserBlock b
      = if (p.parsers[b.stream].consume b.bytes (b.successor b.index)).remaining = 0 then
          (p.setParser b.stream (p.parsers[b.stream].consume b.bytes (b.successor b.index))).finishParcel b
        else p.setParser b.stream (p.parsers[b.stream].consume b.bytes (b.successor b.index)) := by
  rw [Part.parserBlock, payload, atE]
  exact if_pos ⟨atE, b.fullStrobe_iff.mpr full⟩

theorem parserBlock_consumed (size : b.bytes.length = 64) (more : 64 < p.parsers[b.stream].remaining) :
    ∃ y, p.parserBlock b = p.setParser b.stream y
      ∧ y = { p.parsers[b.stream] with
          crc := crcRun p.parsers[b.stream].crc b.bytes
          remaining := p.parsers[b.stream].remaining - 64
          expected := b.successor p.parsers[b.stream].expected
          verdict := y.verdict
          validator := y.validator
          capture := y.capture } := by
  rw [← atE]
  have eq := p.parsers[b.stream].consume_more (b.successor b.index) size more
  refine ⟨_, ?_, eq⟩
  rw [parserBlock_taken payload atE full, if_neg]
  rw [eq]
  dsimp only
  omega

theorem parserBlock_finishes (last : p.parsers[b.stream].remaining ≤ 64) :
    p.parserBlock b
      = (p.setParser b.stream (p.parsers[b.stream].consume b.bytes (b.successor b.index))).finishParcel b := by
  rw [parserBlock_taken payload atE full, if_pos]
  rw [Parser.consume_eq]
  dsimp only
  omega

end

/-- What PARCEL_BROKEN tells of a block that breaks a parcel (R8). -/
def brokenSubject (x : Parser) (h : Header) (b : ParserBlock) : Subject :=
  .page { edition := h.edition, zone := h.zone, sep := h.sep, page := h.page, version := h.version
          kind := h.kind, stream := b.stream.val, cause := if b.index = x.expected then 1 else 2
          flags := 1, a := h.block, b := h.length - x.remaining, c := x.remaining, addr := b.addr }

/-- The parcel is broken: the parser hunts and PARCEL_BROKEN is raised. -/
def breakParcel (p : Part) (b : ParserBlock) (h : Header) : Part :=
  (p.changeParser b.stream fun x => { x with state := .hunt }).raise .parcelBroken
    (brokenSubject p.parsers[b.stream] h b)

theorem parserBlock_breaks {h : Header} (header : p.parsers[b.stream].header = some h)
    (broken : b.index ≠ p.parsers[b.stream].expected ∨ b.strobes ≠ BitVec.allOnes 64) :
    p.parserBlock b = (p.breakParcel b h).huntBlock b := by
  rw [Part.parserBlock, payload]
  dsimp only
  rw [Part.payloadBlock]
  have notTaken : ¬ (b.index = p.parsers[b.stream].expected ∧ b.fullStrobe = true) := by
    rintro ⟨atE, full⟩
    exact broken.elim (· atE) (· (b.fullStrobe_iff.mp full))
  rw [if_neg notTaken]
  unfold Part.reportBroken
  dsimp only
  rw [header, breakParcel, brokenSubject]
  dsimp only
  congr 3
  split
  · rfl
  · rfl

end

theorem breakParcel_parsers (p : Part) (b : ParserBlock) (h : Header) :
    (p.breakParcel b h).parsers = p.parsers.set b.stream { p.parsers[b.stream] with state := .hunt } := by
  rw [breakParcel, Part.raise_parsers]
  exact p.changeParser_parsers _ _

/-- The part before PARCEL_BROKEN is raised looks, to the report unit, as it did. -/
theorem breakParcel_tells {p f : Part} (h : Header) (b : ParserBlock) (quiet : p.Only [.mem, .port] f)
    (wf : Memory.wf p.mem → Memory.wf f.mem) :
    p.tells (f.breakParcel b h) .parcelBroken (brokenSubject f.parsers[b.stream] h b) := by
  have hunting : p.Only [.mem, .port, .parsers] (f.changeParser b.stream fun x => { x with state := .hunt }) :=
    (quiet.mono (by simp)).changeParser
  refine hunting.quiet.tells (fun hwf => ?_) (raise_tells _ _ _)
  exact ((Touches.refl [headerRange] f).changeParser (by simp)).wf (wf hwf)

theorem breakParcel_only (p : Part) (b : ParserBlock) (h : Header) :
    p.Only [.mem, .port, .parsers, .reports] (p.breakParcel b h) := ((Only.refl _ p).changeParser).raise

theorem huntBlock_stray {p : Part} {b : ParserBlock} {fault : HeaderFault}
    (invalid : headerFault b.bytes b.strobes = some fault) : p.huntBlock b = p.stray b.stream := by
  rw [Part.huntBlock, invalid]

theorem huntBlock_header {p : Part} {b : ParserBlock} (valid : headerFault b.bytes b.strobes = none) :
    p.huntBlock b = p.startParcel b true := by rw [Part.huntBlock, valid]

/-- A record stays in its ring entry where the next parcel starts. -/
theorem records_startRanges {p q r : Part} {kind : ReportKind} {x : Subject} (told : p.tells q kind x)
    (cabase : q.cabase = p.cabase) (touches : q.Touches q.startRanges r) : p.records r kind x := by
  obtain ⟨reports, ring⟩ := told
  intro passes up room wf
  rw [← ring passes up room wf, ← Part.base_congr cabase]
  have written : q.reports.written = p.reports.written + 1 := by rw [reports, after_written passes up room]; rfl
  refine touches.readBytes fun x hx => ?_
  rw [startRanges, List.mem_cons, List.mem_cons, List.mem_map] at hx
  rcases hx with rfl | rfl | ⟨i, -, rfl⟩
  · rw [written]
    exact ringOffset_apart_next _
  · exact .inr (ringOffset_apart_headerRange _)
  · exact .inr (ringOffset_apart_resultRange _ _)

end Part

/-- Settles O24: the block is consumed, or breaks the parcel and is examined as in HUNT. -/
theorem payloadBlockIsConsumed : Obligations.PayloadBlockIsConsumed := by
  refine ⟨fun w n k s up aligned cls stream unwatched payload atE full more => ?consumed,
    fun w n k s i h up aligned cls stream unwatched payload header index broken => ⟨fun fault invalid => ?stray,
      fun valid more => ?starts⟩⟩
  case consumed =>
    subst stream
    obtain ⟨y, made, eq⟩ := Part.parserBlock_consumed (p := s.part.forward w.addr.toNat w.data w.strobes)
      (b := s.part.windows[n].parserBlock w) payload atE full w.data.length_toList more
    obtain ⟨run, -⟩ := exec_intakeBlock up aligned cls unwatched made
    refine ⟨_, run, ?_, rfl, fun a outside => Memory.read_writeStrobed_of_outside _ _ a _ _ outside⟩
    have parsers : ((s.part.forward w.addr.toNat w.data w.strobes).setParser s.part.windows[n].stream y).parsers
      = s.part.parsers.set s.part.windows[n].stream y := rfl
    have own := Vector.set_same (v := s.part.parsers) (k := s.part.windows[n].stream) (x := y)
    refine parsers.trans (congrArg (s.part.parsers.set s.part.windows[n].stream ·) ?_)
    rw [← parsers] at own
    dsimp only
    rw [show (s.part.windows[n].parserBlock w).stream = s.part.windows[n].stream from rfl, own]
    exact eq
  case stray =>
    subst stream index
    have breaks := Part.parserBlock_breaks (p := s.part.forward w.addr.toNat w.data w.strobes)
      (b := s.part.windows[n].parserBlock w) payload header broken
    rw [Part.huntBlock_stray invalid] at breaks
    obtain ⟨run, memory⟩ := exec_intakeBlock up aligned cls unwatched breaks
    have forwarded := s.part.forward_only w.addr.toNat w.data w.strobes
    have told := Part.breakParcel_tells h (s.part.windows[n].parserBlock w) forwarded
      fun wf => Memory.wf_writeStrobed _ _ _ _ wf
    have parsers := (s.part.forward w.addr.toNat w.data w.strobes).breakParcel_parsers
        (s.part.windows[n].parserBlock w) h
    have broke := (forwarded.mono (by simp)).trans
      ((s.part.forward w.addr.toNat w.data w.strobes).breakParcel_only (s.part.windows[n].parserBlock w) h)
    generalize (s.part.forward w.addr.toNat w.data w.strobes).breakParcel _ _
        = a at breaks run memory told parsers broke
    have counted := a.stray_parsers (s.part.windows[n].parserBlock w).stream
    have only := (broke.mono (by simp)).trans ((a.stray_only (s.part.windows[n].parserBlock w).stream).mono
      (more := [.mem, .port, .parsers, .reports]) (by simp))
    have quiet : (a.stray (s.part.windows[n].parserBlock w).stream).reports = a.reports :=
      (a.stray_only (s.part.windows[n].parserBlock w).stream) .reports (by simp)
    have touches : a.Touches a.startRanges (a.stray (s.part.windows[n].parserBlock w).stream) :=
      (Part.Touches.refl _ a).changeParser (by simp [Part.startRanges])
    have own : a.parsers[(s.part.windows[n].parserBlock w).stream]
        = { s.part.parsers[s.part.windows[n].stream] with state := .hunt } := by
      rw [parsers]
      exact Vector.set_same
    obtain ⟨raised, ring⟩ := told
    refine ⟨_, run, ?_, ⟨quiet.trans raised, Part.records_startRanges ⟨raised, ring⟩ (broke .cabase (by simp)) touches⟩,
      State.part_congr only.eq_pick, memory⟩
    refine counted.trans ?_
    rw [own, parsers, Vector.set_set]
    rfl
  case starts =>
    subst stream index
    have breaks := Part.parserBlock_breaks (p := s.part.forward w.addr.toNat w.data w.strobes)
      (b := s.part.windows[n].parserBlock w) payload header broken
    rw [Part.huntBlock_header valid] at breaks
    obtain ⟨run, memory⟩ := exec_intakeBlock up aligned cls unwatched breaks
    have forwarded := s.part.forward_only w.addr.toNat w.data w.strobes
    have told := Part.breakParcel_tells h (s.part.windows[n].parserBlock w) forwarded
      fun wf => Memory.wf_writeStrobed _ _ _ _ wf
    have parsers := (s.part.forward w.addr.toNat w.data w.strobes).breakParcel_parsers
        (s.part.windows[n].parserBlock w) h
    have broke := (forwarded.mono (by simp)).trans
      ((s.part.forward w.addr.toNat w.data w.strobes).breakParcel_only (s.part.windows[n].parserBlock w) h)
    generalize (s.part.forward w.addr.toNat w.data w.strobes).breakParcel _ _
        = a at breaks run memory told parsers broke
    have started := Part.startParcel_started a (s.part.windows[n].parserBlock w) true _ rfl more
    generalize a.startParcel _ _ = q at run memory started
    have own : a.parsers[(s.part.windows[n].parserBlock w).stream]
        = { s.part.parsers[s.part.windows[n].stream] with state := .hunt } := by
      rw [parsers]
      exact Vector.set_same
    refine ⟨_, run, started.state, started.header, started.expected, started.remaining, ?_, ?_,
      Part.records_startRanges told (broke .cabase (by simp)) started.touches, fun j other => ?_,
      State.part_congr ((broke.mono (by simp)).trans started.only).eq_pick, memory⟩
    · exact started.resyncs.trans (by rw [own]; rfl)
    · exact started.strays.trans (by rw [own])
    · refine (started.others j other).trans ?_
      rw [parsers]
      exact Vector.set_other other

end Sys2Proof.Machine
end

section
/-! SUPPORT. The finish of an accepted parcel (R9, R12). -/

namespace Sys2Proof.Machine

/-- The end checks change the validator and its verdict alone (R11). -/
theorem Parser.endChecks_eq (x : Parser) :
    x.endChecks = { x with validator := x.endChecks.validator, verdict := x.endChecks.verdict } := by
  unfold Parser.endChecks
  cases x.validator with
  | none => rfl
  | some v => rfl

/-- The verdict of the payload's last bytes and the end checks (R11). -/
theorem Parser.consume_endChecks_verdict (x : Parser) (bytes : List Byte) (next : Nat) :
    (x.consume bytes next).endChecks.verdict
      = match x.validator with
        | none => x.verdict
        | some v => ((v.feedAll (bytes.take (min 64 x.remaining))).finish).verdict := by
  unfold Parser.consume Parser.validate Parser.endChecks
  dsimp only
  cases h : x.validator with
  | none =>
    dsimp only
    rw [h]
  | some v => rfl

/-- What the last payload block leaves of an accepted parcel (R9). -/
def Parser.finished (x : Parser) (b : ParserBlock) : Parser := (x.consume b.bytes (b.successor b.index)).endChecks

theorem Parser.finished_crc (x : Parser) (b : ParserBlock) (last : x.remaining ≤ 64) :
    (x.finished b).crc = crcRun x.crc (b.bytes.take x.remaining) := by
  have all : min 64 x.remaining = x.remaining := by omega
  rw [Parser.finished, Parser.endChecks_eq]
  dsimp only
  rw [Parser.consume_eq, all]

theorem Parser.finished_slotRef (x : Parser) (b : ParserBlock) : (x.finished b).slotRef = x.slotRef := by
  rw [Parser.finished, Parser.endChecks_eq]
  dsimp only
  rw [Parser.consume_eq]

theorem Parser.finished_verdict (x : Parser) (b : ParserBlock) (last : x.remaining ≤ 64) :
    (x.finished b).verdict
      = match x.validator with
        | none => x.verdict
        | some v => ((v.feedAll (b.bytes.take x.remaining)).finish).verdict := by
  have all : min 64 x.remaining = x.remaining := by omega
  have verdict := x.consume_endChecks_verdict b.bytes (b.successor b.index)
  rwa [all] at verdict

namespace Part

/-- The last block of a well-formed accepted parcel (R9, R12). -/
theorem parserBlock_accepted {p : Part} {b : ParserBlock} {h : Header} {kind : ParcelKind} {hit : Nat}
    (payload : p.parsers[b.stream].state = .payload) (atE : b.index = p.parsers[b.stream].expected)
    (full : b.strobes = BitVec.allOnes 64) (last : p.parsers[b.stream].remaining ≤ 64)
    (header : p.parsers[b.stream].header = some h) (sound : p.parsers[b.stream].fieldFault = none)
    (known : parcelKind? h.kind = some kind) (accepted : p.parsers[b.stream].decision = .accept hit) :
    ∃ q, p.parserBlock b = q
      ∧ q.transit = p.transit ++ [(p.parsers[b.stream].finished b).parcel b.stream kind h hit b p.tick]
      ∧ q.parsers = p.parsers.set b.stream { p.parsers[b.stream].finished b with
          state := .seek, filed := satInc Config.max32 p.parsers[b.stream].filed }
      ∧ p.Only [.mem, .port, .parsers, .transit] q ∧ p.Touches [headerRange] q := by
  have finishes := parserBlock_finishes payload atE full last
  have fields := Parser.consume_eq p.parsers[b.stream] b.bytes (b.successor b.index)
  have checks : (p.parsers[b.stream].consume b.bytes (b.successor b.index)).endChecks
      = p.parsers[b.stream].finished b := rfl
  generalize p.parsers[b.stream].consume b.bytes (b.successor b.index) = y at finishes fields checks
  have yHeader : y.header = some h := by rw [fields]; exact header
  have ySound : y.fieldFault = none := by rw [fields]; exact sound
  have yAccepted : y.decision = .accept hit := by rw [fields]; exact accepted
  have yFiled : y.filed = p.parsers[b.stream].filed := by rw [fields]
  have own : (p.setParser b.stream y).parsers[b.stream] = y := Vector.set_same
  refine ⟨_, finishes, ?_⟩
  unfold Part.finishParcel
  dsimp only
  rw [own, yHeader]
  dsimp only
  rw [ySound, known, yAccepted]
  dsimp only
  rw [checks]
  refine ⟨?_, ?_, ?_, ?_⟩
  · exact Part.headerWrite_transit _ _
  · rw [changeParser_parsers]
    show (p.parsers.set b.stream y).set b.stream _ = _
    rw [Vector.set_set]
    congr 1
    show ({ ((p.parsers.set b.stream y)[b.stream]).endChecks with state := _, filed := satInc Config.max32 ((p.parsers.set b.stream y)[b.stream]).filed } : Parser) = _
    rw [Vector.set_same, checks, yFiled]
  · exact (((Only.refl _ p).setParser).setTransit).changeParser
  · exact (((Touches.refl _ p).setParser).setTransit).changeParser (by simp)

end Part

/-- Settles O25. -/
theorem parcelFinishes : Obligations.ParcelFinishes := by
  intro w n k s h kind hit up aligned cls stream unwatched payload atE full _ last header sound known accepted
  subst stream
  obtain ⟨q, made, transit, parsers, only, touches⟩ :=
    Part.parserBlock_accepted (p := s.part.forward w.addr.toNat w.data w.strobes) (b := s.part.windows[n].parserBlock w)
      payload atE full last header sound known accepted
  obtain ⟨run, -⟩ := exec_intakeBlock up aligned cls unwatched made
  have all := ((s.part.forward_only w.addr.toNat w.data w.strobes).mono (by simp)).trans only
  have crc := s.part.parsers[s.part.windows[n].stream].finished_crc (s.part.windows[n].parserBlock w) last
  have slotRef := s.part.parsers[s.part.windows[n].stream].finished_slotRef (s.part.windows[n].parserBlock w)
  have verdict := s.part.parsers[s.part.windows[n].stream].finished_verdict (s.part.windows[n].parserBlock w) last
  have same : (s.part.forward w.addr.toNat w.data w.strobes).parsers[(s.part.windows[n].parserBlock w).stream]
    = s.part.parsers[s.part.windows[n].stream] := rfl
  rw [same] at transit parsers
  generalize s.part.parsers[s.part.windows[n].stream].finished (s.part.windows[n].parserBlock w) = y
    at transit parsers crc slotRef verdict
  have own : q.parsers[s.part.windows[n].stream] = { y with
      state := .seek, filed := satInc Config.max32 s.part.parsers[s.part.windows[n].stream].filed } := by
    rw [parsers]
    exact Vector.set_same
  refine ⟨_, y.parcel s.part.windows[n].stream kind h hit (s.part.windows[n].parserBlock w) s.part.tick, run, transit,
    rfl, rfl, rfl, rfl, rfl, rfl, slotRef, rfl, ?_, ?_, fun none => ?_, fun v some => ?_, ?_, ?_, fun j other => ?_,
    State.part_congr all.eq_pick, fun a outside header => ?_⟩
  · exact congrArg (~~~ ·) crc
  · rw [own]
    rfl
  · rw [none] at verdict
    exact verdict
  · rw [some] at verdict
    exact verdict
  · rw [own]
  · rw [own]
    rfl
  · rw [parsers]
    exact Vector.set_other other
  · refine (touches.kept a ?_).trans (Memory.read_writeStrobed_of_outside _ _ a _ _ outside)
    intro x hx
    have base : (s.part.forward w.addr.toNat w.data w.strobes).base = s.part.base := Part.base_congr rfl
    rw [List.mem_singleton.mp hx, base]
    simp only [headerRange, Config.offStatusHeader]
    omega

end Sys2Proof.Machine
end

section
/-! SUPPORT. The end of a command (R178, R179): what `Part.finish` makes of a record, and the commands of the header,
window and filter records (chapters 1 and 9). -/

namespace Sys2Proof.Machine

/-! ## The result block in memory -/

/-- The first bytes of an own write stand in memory. -/
theorem Part.own_prefix (p : Part) (w : OwnWrite) (off n : Nat) (bs : List Byte) (wf : Memory.wf p.mem)
    (le : n ≤ bs.length) : (p.own w off bs).mem.readBytes (p.base + off) n = bs.take n := by
  have written := p.own_written w off bs wf
  rw [← congrArg (List.take n) written]
  unfold Memory.readBytes
  rw [← List.map_take, List.take_range, Nat.min_eq_left le]

theorem Part.statusBytes_result (p : Part) (r : RecordId) : ∃ rest, p.statusBytes r = p.resultBytes r ++ rest := by
  cases r with
  | header => exact ⟨_, by simp only [Part.statusBytes, Part.paramBytes, List.append_assoc]; rfl⟩
  | window n => exact ⟨_, by simp only [Part.statusBytes, padTo, List.append_assoc]; rfl⟩
  | filter n => exact ⟨_, by simp only [Part.statusBytes, padTo, List.append_assoc]; rfl⟩
  | screenSet n => exact ⟨_, by simp only [Part.statusBytes, padTo, List.append_assoc]; rfl⟩
  | plate n => exact ⟨_, by simp only [Part.statusBytes, padTo, List.append_assoc]; rfl⟩
  | directory => exact ⟨_, by simp only [Part.statusBytes, padTo]; rfl⟩

/-- The result fields of a command's end (R179). -/
def CmdUnit.ended (u : CmdUnit) (c : ResultCode) (d : Word) : CmdUnit :=
  { u with stage := .unlocked, result := { tag := u.tag, code := c, detail := d } }

theorem Part.finish_header (p : Part) (c : ResultCode) (d : Nat) :
    p.finish .header c d = (p.setRecord .header
      ((p.unit .header).ended c (BitVec.ofNat 32 d))).headerWrite .params := rfl

theorem Part.finish_other (p : Part) {r : RecordId} (other : r ≠ .header) (c : ResultCode) (d : Nat) :
    p.finish r c d = (p.setRecord r ((p.unit r).ended c (BitVec.ofNat 32 d))).own (.result r) r.statusOffset
      (((p.setRecord r ((p.unit r).ended c (BitVec.ofNat 32 d))).statusBytes r).take 64) := by
  cases r with
  | header => exact absurd rfl other
  | _ => rfl

theorem Part.finish_shows (p : Part) (r : RecordId) (c : ResultCode) (d : Nat) (wf : Memory.wf p.mem) :
    (p.finish r c d).mem.readBytes (p.base + r.statusOffset) 8
      = [(p.unit r).tag, BitVec.ofNat 8 c.code, 0, 0] ++ leBytes 4 (BitVec.ofNat 32 d).toNat := by
  have shown : (p.setRecord r ((p.unit r).ended c (BitVec.ofNat 32 d))).resultBytes r
      = [(p.unit r).tag, BitVec.ofNat 8 c.code, 0, 0] ++ leBytes 4 (BitVec.ofNat 32 d).toNat := by
    rw [Part.resultBytes, Part.unit_setRecord]
    rfl
  have base : p.base = (p.setRecord r ((p.unit r).ended c (BitVec.ofNat 32 d))).base := rfl
  rw [← shown, base]
  have wf' : Memory.wf (p.setRecord r ((p.unit r).ended c (BitVec.ofNat 32 d))).mem := wf
  by_cases header : r = .header
  · subst header
    rw [Part.finish_header]
    generalize p.setRecord .header _ = q at wf'
    refine (q.own_prefix _ _ 8 _ wf' ?_).trans ?_
    · rw [q.groupBytes_length]
      decide
    · rw [Part.groupBytes, Part.paramBytes]
      simp only [List.append_assoc]
      exact List.take_left' (q.resultBytes_length .header)
  · rw [p.finish_other header]
    generalize p.setRecord r _ = q at wf'
    obtain ⟨rest, bytes⟩ := q.statusBytes_result r
    refine (q.own_prefix _ _ 8 _ wf' ?_).trans ?_
    · rw [bytes, List.length_take, List.length_append, q.resultBytes_length]
      omega
    · rw [bytes, List.take_take]
      exact List.take_left' (q.resultBytes_length r)

/-! ## Wider ranges -/

/-- The same bytes within ranges that hold the ranges. -/
theorem Part.Touches.widen {ranges more : List (Nat × Nat)} {p q : Part} (h : p.Touches ranges q)
    (sub : ∀ x ∈ ranges, ∃ y ∈ more, y.1 ≤ x.1 ∧ x.1 + x.2 ≤ y.1 + y.2) : p.Touches more q := by
  refine ⟨h.cabase, fun a outside => h.kept a fun x hx => ?_, h.wf⟩
  obtain ⟨y, hy, low, high⟩ := sub x hx
  have := outside y hy
  omega

/-- The header record's result fields stand in the status header. -/
theorem Part.Touches.finish_header {ranges : List (Nat × Nat)} {p q : Part} (h : p.Touches ranges q) {c : ResultCode}
    {d : Nat} (inside : headerRange ∈ ranges) : p.Touches ranges (q.finish .header c d) := by
  have result : q.Touches [resultRange .header] (q.finish .header c d) := (refl _ q).finish (by simp)
  refine h.trans (result.widen fun x hx => ⟨headerRange, inside, ?_⟩)
  rw [List.mem_singleton.mp hx]
  exact ⟨Nat.le_refl _, by decide⟩

theorem Part.Touches.finish_plate {ranges : List (Nat × Nat)} {p q : Part} (h : p.Touches ranges q) {n : Fin 64}
    {c : ResultCode} {d : Nat} (inside : plateRange n ∈ ranges) : p.Touches ranges (q.finish (.plate n) c d) := by
  have result : q.Touches [resultRange (.plate n)] (q.finish (.plate n) c d) := (refl _ q).finish (by simp)
  refine h.trans (result.widen fun x hx => ⟨plateRange n, inside, ?_⟩)
  rw [List.mem_singleton.mp hx]
  exact ⟨Nat.le_refl _, Nat.add_le_add_left (show 64 ≤ 128 by decide) _⟩

theorem Part.Touches.finishFree_plate {ranges : List (Nat × Nat)} {p q : Part} (h : p.Touches ranges q) {n : Fin 64}
    {c : ResultCode} (inside : plateRange n ∈ ranges) : p.Touches ranges (q.finishFree (.plate n) c) :=
  (h.tables { q with freeReads := q.freeReads + 1 }).finish_plate inside

/-! ## A command's end, after work that leaves the command units -/

section
variable {ranges : List (Nat × Nat)} {p q : Part} {r : RecordId} {c : ResultCode}

theorem Part.finish_ended_of {d : Nat} (units : q.units = p.units) (cabase : q.cabase = p.cabase)
    (wf : Memory.wf p.mem → Memory.wf q.mem) : p.ended (q.finish r c d) r c (BitVec.ofNat 32 d) := by
  have unit (r' : RecordId) : q.unit r' = p.unit r' := by rw [Part.unit, Part.unit, units]
  refine ⟨?_, fun r' other => ?_, fun formed => ?_⟩
  · rw [Part.finish_unit, unit]
  · rw [Part.finish_unit_ne _ _ _ _ _ other, unit]
  · rw [← Part.base_congr cabase, Part.finish_shows q r c d (wf formed), unit]

theorem Part.finish_ended {d : Nat} (units : q.units = p.units) (touches : p.Touches ranges q) :
    p.ended (q.finish r c d) r c (BitVec.ofNat 32 d) := Part.finish_ended_of units touches.cabase touches.wf

theorem Part.finishFree_ended (units : q.units = p.units) (touches : p.Touches ranges q) :
    ∃ detail, p.ended (q.finishFree r c) r c detail :=
  ⟨_, Part.finish_ended (q := { q with freeReads := q.freeReads + 1 }) units (touches.tables _)⟩

end

/-! ## The dispatch of a command that runs (R177) -/

theorem Part.restarting_iff (p : Part) : p.restarting = true ↔ ∃ k, p.sweep = .restart k := by
  unfold Part.restarting
  split
  · exact ⟨fun _ => ⟨_, by assumption⟩, fun _ => rfl⟩
  · rename_i other
    exact ⟨fun h => (nomatch h), fun ⟨k, e⟩ => absurd e (other k)⟩

section
variable {s : State} {r : RecordId} {c : Option Command} {act : Part → Part}

theorem onPart_runs (runs : s.runs r c) :
    onPart s (fun p => p.dispatch r c act) = .next { s with part := act s.part } := by
  obtain ⟨up, awaits, taken, started⟩ := runs
  have free : s.part.barred r = false := by
    rw [Part.barred, taken, started]
    rfl
  rw [onPart_up up, Part.dispatch, if_pos awaits, if_neg (by rw [free]; exact Bool.false_ne_true)]

theorem onPart_bars (up : s.resetn = true) (awaits : s.part.awaits r c = true) (bars : s.bars r) :
    onPart s (fun p => p.dispatch r c act) = .next { s with part := s.part.setStage r .busy } := by
  have barred : s.part.barred r = true := by
    rw [Part.barred, Bool.or_eq_true, beq_iff_eq, Part.restarting_iff]
    exact bars.symm
  rw [onPart_up up, Part.dispatch, if_pos awaits, if_pos barred]

end

/-! ## Refusals: nothing but the record's command ends -/

section
variable {s : State} {i : Instr} {r : RecordId} {c : ResultCode} {d : Nat}

theorem State.endsOnly_of_finish (run : exec i s = .next { s with part := s.part.finish r c d }) :
    s.endsOnly i r c (BitVec.ofNat 32 d) :=
  ⟨_, run, Part.finish_ended rfl (Part.Touches.refl [] _),
    State.part_congr ((Part.Only.refl [.mem, .port, .units] _).finish).eq_pick,
    ((Part.Touches.refl _ _).finish (by simp)).kept⟩

end

/-- A result that no rule gives a detail for: nothing but the record's command and the free values differ. -/
theorem State.ends_of_finishFree {s : State} {i : Instr} {r : RecordId} {c : ResultCode}
    (run : exec i s = .next { s with part := s.part.finishFree r c }) :
    ∃ t detail, exec i s = .next t ∧ s.part.ended t.part r c detail
      ∧ t = { s with part := { s.part with units := t.part.units, freeReads := t.part.freeReads, mem := t.part.mem
                                           port := t.part.port } }
      ∧ s.part.keptOutside t.part [resultRange r] := by
  obtain ⟨detail, ended⟩ := Part.finishFree_ended (p := s.part) (r := r) (c := c) rfl (Part.Touches.refl [] _)
  exact ⟨_, detail, run, ended,
    State.part_congr ((Part.Only.refl [.mem, .port, .units, .freeReads] _).finishFree).eq_pick,
    ((Part.Touches.refl _ _).finishFree (by simp)).kept⟩

/-! ## SET_PARAMS (R181) -/

theorem filterAction?_code (a : FilterAction) : filterAction? a.code = some a := by cases a <;> rfl

theorem filterAction?_none {n : Nat} (h : n ≠ 1 ∧ n ≠ 2) : filterAction? n = none := by
  unfold filterAction?
  split
  · exact absurd rfl h.1
  · exact absurd rfl h.2
  · rfl

theorem clampRange_eq (low high v : Nat) (le : low ≤ high) :
    clampRange low high v = if v < low then low else if high < v then high else v := by
  unfold clampRange
  split
  · omega
  · split <;> omega

/-- A value that its range changes lies outside it. -/
theorem clampRange_ne (low high v : Nat) (le : low ≤ high) :
    (clampRange low high v != v) = decide (v < low ∨ high < v) := by
  rw [Bool.eq_iff_iff, bne_iff_ne, decide_eq_true_iff, clampRange]
  omega

theorem Part.doSetParams_refused {p : Part} (refused : (parseParams (p.copyOf .header)).params? = none) :
    p.doSetParams = p.finish .header .badParam 1 := by
  unfold Part.doSetParams
  dsimp only
  rw [refused]

theorem Part.doSetParams_accepted {p : Part} {x : Params}
    (accepted : (parseParams (p.copyOf .header)).params? = some x) :
    p.doSetParams = ((p.setParams x).headerWrite .params).finish .header .done
      (paramsDetail (x.gapMs != (parseParams (p.copyOf .header)).gapMs)
        (x.orphanMs != (parseParams (p.copyOf .header)).orphanMs)) := by
  unfold Part.doSetParams
  dsimp only
  rw [accepted]

theorem paramsDetail_word (a b : Prop) [Decidable a] [Decidable b] :
    (if a then (1 : Word) else 0) + (if b then 2 else 0) = BitVec.ofNat 32 (paramsDetail (decide a) (decide b)) := by
  by_cases ha : a
  · by_cases hb : b
    · simp [ha, hb, paramsDetail]
    · simp [ha, hb, paramsDetail]
  · by_cases hb : b
    · simp [ha, hb, paramsDetail]
    · simp [ha, hb, paramsDetail]

/-- Settles O40. -/
theorem setParams : Obligations.SetParams := by
  intro s runs f
  have run : exec .setParams s = .next { s with part := s.part.doSetParams } := by rw [exec_setParams, onPart_runs runs]
  refine ⟨fun unknown => ?_, fun a known => ?_⟩
  · rw [Part.doSetParams_refused (congrArg (Option.map _) (filterAction?_none unknown))] at run
    exact ⟨_, run, Part.finish_ended rfl (Part.Touches.refl [] _),
      State.part_congr ((Part.Only.refl [.mem, .port, .units] _).finish).eq_pick,
      ((Part.Touches.refl _ _).finish_header (by simp)).kept⟩
  · have accepted : f.params? = some
        { gapMs := clampRange 100 600000 f.gapMs, orphanMs := clampRange 1000 600000 f.orphanMs
          threshold := f.threshold, defaultAction := a, suppress := f.suppress, enable := f.enable } := by
      rw [ParamFields.params?, known, filterAction?_code]
      rfl
    rw [Part.doSetParams_accepted accepted] at run
    set x : Params := { gapMs := clampRange 100 600000 f.gapMs, orphanMs := clampRange 1000 600000 f.orphanMs
                        threshold := f.threshold, defaultAction := a, suppress := f.suppress, enable := f.enable }
    have only : s.part.Only [.mem, .port, .units, .params] ((s.part.setParams x).headerWrite .params) :=
      ((Part.Only.refl _ _).setParams).headerWrite
    have touches : s.part.Touches [headerRange] ((s.part.setParams x).headerWrite .params) :=
      ((Part.Touches.refl _ _).setParams).headerWrite (by simp)
    have units : ((s.part.setParams x).headerWrite .params).units = s.part.units := Part.headerWrite_units _ _
    have params : ((s.part.setParams x).headerWrite .params).params = x := Part.headerWrite_params _ _
    generalize (s.part.setParams x).headerWrite .params = q at run only touches units params
    refine ⟨_, run, ?_, ?_, State.part_congr only.finish.eq_pick, (touches.finish_header (by simp)).kept⟩
    · refine (Part.finish_params _ _ _ _).trans (params.trans ?_)
      rw [← clampRange_eq 100 600000 f.gapMs (by decide), ← clampRange_eq 1000 600000 f.orphanMs (by decide)]
    · have ended := Part.finish_ended (r := .header) (c := .done)
        (d := paramsDetail (x.gapMs != f.gapMs) (x.orphanMs != f.orphanMs)) units touches
      convert ended using 1
      rw [show (x.gapMs != f.gapMs) = _ from clampRange_ne 100 600000 f.gapMs (by decide),
        show (x.orphanMs != f.orphanMs) = _ from clampRange_ne 1000 600000 f.orphanMs (by decide)]
      exact paramsDetail_word _ _

end Sys2Proof.Machine
end

section
/-! SUPPORT. Commands of one record that end at once: filters (R17), unknown codes and BUSY (R179, R180), UNLOAD (R96),
RELEASE (R121), CLEAR_COUNTERS (R47). -/

namespace Sys2Proof.Machine

/-! ## Filter commands (R17) -/

theorem Part.doFilterLoad_refused {p : Part} {n : Fin 16}
    (refused : (parseFilter (p.copyOf (.filter n))).entry? = none) :
    p.doFilterLoad n = p.finishFree (.filter n) .badParam := by
  unfold Part.doFilterLoad
  rw [refused]

theorem Part.doFilterLoad_accepted {p : Part} {n : Fin 16} {f : FilterEntry}
    (accepted : (parseFilter (p.copyOf (.filter n))).entry? = some f) :
    p.doFilterLoad n = ((p.setFilter n f).statusWrite (.filter n)).finishFree (.filter n) .done := by
  unfold Part.doFilterLoad
  rw [accepted]

/-- A filter entry set, shown and the command ended (R17). -/
theorem State.filterSet {s : State} {i : Instr} {n : Fin 16} {f : FilterEntry}
    (run : exec i s = .next
      { s with part := ((s.part.setFilter n f).statusWrite (.filter n)).finishFree (.filter n) .done }) :
    ∃ t detail, exec i s = .next t
      ∧ t.part.filters = s.part.filters.set n f
      ∧ s.part.ended t.part (.filter n) .done detail
      ∧ t = { s with part := { s.part with filters := t.part.filters, units := t.part.units
                                           freeReads := t.part.freeReads, mem := t.part.mem, port := t.part.port } }
      ∧ s.part.keptOutside t.part [resultRange (.filter n)] := by
  have only : s.part.Only [.mem, .port, .filters] ((s.part.setFilter n f).statusWrite (.filter n)) :=
    ((Part.Only.refl _ _).setFilter).statusWrite
  have touches : s.part.Touches [resultRange (.filter n)] ((s.part.setFilter n f).statusWrite (.filter n)) :=
    ((Part.Touches.refl _ _).setFilter).statusWrite (by simp [statusRange_filter])
  have filters : ((s.part.setFilter n f).statusWrite (.filter n)).filters = s.part.filters.set n f :=
    Part.statusWrite_filters _ _
  generalize (s.part.setFilter n f).statusWrite (.filter n) = q at run only touches filters
  obtain ⟨detail, ended⟩ := Part.finishFree_ended (r := .filter n) (c := .done) (only .units (by simp)) touches
  have all := (only.mono (more := [.mem, .port, .filters, .units, .freeReads]) (by simp)).finishFree (r := .filter n)
      (c := .done)
  exact ⟨_, detail, run, (Part.finishFree_filters _ _ _).trans filters, ended, State.part_congr all.eq_pick,
    (touches.finishFree (by simp)).kept⟩

/-- Settles O43. -/
theorem filterCommands : Obligations.FilterCommands := by
  refine ⟨fun s n runs => ?load, fun s n runs => ?disable⟩
  case load =>
    have run : exec (.filterLoad n) s = .next { s with part := s.part.doFilterLoad n } := by
      rw [exec_filterLoad, onPart_runs runs]
    intro f pages
    refine ⟨fun bad => ?_, fun a good known => ?_⟩
    · have refused : f.entry? = none := by
        rw [FilterFields.entry?]
        split
        · rfl
        · rename_i a known
          refine if_neg fun good => ?_
          rcases bad with outside | unknown
          · exact outside good
          · rw [filterAction?_none unknown] at known
            exact nomatch known
      rw [Part.doFilterLoad_refused refused] at run
      exact State.ends_of_finishFree run
    · have accepted : f.entry? = some
          { enable := f.enable, action := a, edition := f.edition, editionMask := f.editionMask, zone := f.zone
            zoneMask := f.zoneMask, pageLow := f.pageLow, pageHigh := f.pageHigh, seps := f.seps, hits := 0 } := by
        rw [FilterFields.entry?, known, filterAction?_code]
        exact if_pos good
      rw [Part.doFilterLoad_accepted accepted] at run
      exact State.filterSet run
  case disable =>
    have run : exec (.filterDisable n) s = .next { s with part := s.part.doFilterDisable n } := by
      rw [exec_filterDisable, onPart_runs runs]
    exact State.filterSet run

/-! ## Unknown codes and BUSY (R179, R180) -/

theorem Part.busyResult_done {p : Part} {r : RecordId} (busy : (p.unit r).stage = .busy) (over' : p.sweep = .none) :
    p.busyResult r = p.finish r .busy 0 := by
  have noSweep (it : SweepItem) : p.sweepThrough it = p := by
    rw [Part.sweepThrough, over']
    rfl
  have notRestarting : p.restarting = false := by rw [Part.restarting, over']
  unfold Part.busyResult
  rw [if_pos busy]
  cases r with
  | screenSet n => exact congrArg (Part.finish · _ _ _) (noSweep _)
  | plate n => exact congrArg (Part.finish · _ _ _) (noSweep _)
  | header => exact if_neg (by simp [notRestarting])
  | window n => exact if_neg (by simp [notRestarting])
  | filter n => exact if_neg (by simp [notRestarting])
  | directory => exact if_neg (by simp [notRestarting])

theorem Part.busyResult_waits {p : Part} {r : RecordId} (restarting : p.restarting = true)
    (noSet : ∀ n, r ≠ .screenSet n) (noPlate : ∀ n, r ≠ .plate n) : p.busyResult r = p := by
  unfold Part.busyResult
  by_cases busy : (p.unit r).stage = .busy
  · rw [if_pos busy]
    cases r with
    | screenSet n => exact absurd rfl (noSet n)
    | plate n => exact absurd rfl (noPlate n)
    | header => exact if_pos restarting
    | window n => exact if_pos restarting
    | filter n => exact if_pos restarting
    | directory => exact if_pos restarting
  · exact if_neg busy

/-- Settles O44. -/
theorem unknownAndBusy : Obligations.UnknownAndBusy := by
  refine ⟨fun s r runs => ?unknown, fun s up => ?barred,
    fun s r up busy => ⟨fun ended => ?busy, fun k restarts noSet noPlate => ?waits⟩⟩
  case unknown =>
    exact State.endsOnly_of_finish (by rw [exec_unknownCommand, onPart_runs runs]; rfl)
  case barred =>
    exact ⟨fun awaits bars => (exec_setParams s).trans (onPart_bars up awaits bars),
      fun n awaits bars => (exec_windowLoad s n).trans (onPart_bars up awaits bars),
      fun n awaits bars => (exec_windowClose s n).trans (onPart_bars up awaits bars),
      fun n awaits bars => (exec_filterLoad s n).trans (onPart_bars up awaits bars),
      fun n awaits bars => (exec_filterDisable s n).trans (onPart_bars up awaits bars),
      fun n awaits bars => (exec_screenSetLoad s n).trans (onPart_bars up awaits bars),
      fun n awaits bars => (exec_unload s n).trans (onPart_bars up awaits bars),
      fun n awaits bars => (exec_arm s n).trans (onPart_bars up awaits bars),
      fun n awaits bars => (exec_cancel s n).trans (onPart_bars up awaits bars),
      fun n awaits bars => (exec_release s n).trans (onPart_bars up awaits bars),
      fun awaits bars => (exec_discardPage s).trans (onPart_bars up awaits bars),
      fun awaits bars => (exec_discardEdition s).trans (onPart_bars up awaits bars),
      fun awaits bars => (exec_clearCounters s).trans (onPart_bars up awaits bars),
      fun r awaits bars => (exec_unknownCommand s r).trans (onPart_bars up awaits bars)⟩
  case busy =>
    exact State.endsOnly_of_finish (by rw [exec_busyResult, onPart_up up, Part.busyResult_done busy ended])
  case waits =>
    rw [exec_busyResult]
    exact onPart_idle (Part.busyResult_waits (s.part.restarting_iff.mpr ⟨k, restarts⟩) noSet noPlate)

/-! ## UNLOAD (R96) -/

theorem releaseAreas_get (owners : Vector (Option (Fin 8)) 8) (n a : Fin 8) :
    (releaseAreas owners n)[a] = if owners[a] = some n then none else owners[a] :=
  Vector.getElem_map _ _

/-- Settles O48, by the set's use and state. -/
theorem unload : Obligations.Unload := by
  intro s n runs
  have run : exec (.unload n) s = .next { s with part := s.part.doUnload n } := by rw [exec_unload, onPart_runs runs]
  refine ⟨fun used => ?used, fun unused loaded => ?loaded, fun unused empty => ?empty⟩
  case used =>
    have refused : s.part.doUnload n = s.part.finish (.screenSet n) .inUse s.part.sets[n].use := if_pos used
    rw [refused] at run
    exact State.endsOnly_of_finish run
  case loaded =>
    have unloads : s.part.doUnload n
        = (((s.part.setSet n s.part.sets[n].emptied).setOwners (releaseAreas s.part.owners n)).statusWrite
            (.screenSet n)).finish (.screenSet n) .done 0 :=
      (if_neg (not_not.mpr unused)).trans (if_pos loaded)
    have emptied : s.part.sets[n].emptied = {} := by rw [ScreenSet.emptied, unused]
    rw [unloads, emptied] at run
    have only : s.part.Only [.mem, .port, .sets, .owners]
        (((s.part.setSet n {}).setOwners (releaseAreas s.part.owners n)).statusWrite (.screenSet n)) :=
      (((Part.Only.refl _ _).setSet).setOwners).statusWrite
    have touches : s.part.Touches [resultRange (.screenSet n)]
        (((s.part.setSet n {}).setOwners (releaseAreas s.part.owners n)).statusWrite (.screenSet n)) :=
      (((Part.Touches.refl _ _).setSet).setOwners).statusWrite (by simp [statusRange_screenSet])
    have sets := ((s.part.setSet n {}).setOwners (releaseAreas s.part.owners n)).statusWrite_sets (.screenSet n)
    have owners := ((s.part.setSet n {}).setOwners (releaseAreas s.part.owners n)).statusWrite_owners (.screenSet n)
    generalize ((s.part.setSet n {}).setOwners (releaseAreas s.part.owners n)).statusWrite (.screenSet n) = q
      at run only touches sets owners
    have all := (only.mono (more := [.mem, .port, .sets, .owners, .units]) (by simp)).finish
      (r := .screenSet n) (c := .done) (d := 0)
    refine ⟨_, run, (Part.finish_sets _ _ _ _).trans sets, fun a => ?_,
      Part.finish_ended (only .units (by simp)) touches,
      State.part_congr all.eq_pick, (touches.finish (by simp)).kept⟩
    have owned : (q.finish (.screenSet n) .done 0).owners = releaseAreas s.part.owners n :=
      (Part.finish_owners _ _ _ _).trans owners
    dsimp only
    rw [owned, releaseAreas_get]
  case empty =>
    have stays : s.part.doUnload n = (s.part.statusWrite (.screenSet n)).finish (.screenSet n) .done 0 :=
      (if_neg (not_not.mpr unused)).trans (if_neg (by rw [empty]; exact SetState.noConfusion))
    rw [stays] at run
    have only : s.part.Only [.mem, .port] (s.part.statusWrite (.screenSet n)) := (Part.Only.refl _ _).statusWrite
    have touches : s.part.Touches [resultRange (.screenSet n)] (s.part.statusWrite (.screenSet n)) :=
      (Part.Touches.refl _ _).statusWrite (by simp [statusRange_screenSet])
    generalize s.part.statusWrite (.screenSet n) = q at run only touches
    exact ⟨_, run, Part.finish_ended (only .units (by simp)) touches,
      State.part_congr ((only.mono (more := [.mem, .port, .units]) (by simp)).finish).eq_pick,
      (touches.finish (by simp)).kept⟩

/-! ## RELEASE (R121) -/

/-- Settles O52. -/
theorem release : Obligations.Release := by
  intro s n runs
  have run : exec (.release n) s = .next { s with part := s.part.doRelease n } := by rw [exec_release, onPart_runs runs]
  refine ⟨fun unarmed => ?_, fun armed => ?_⟩
  · have released : s.part.doRelease n = ((s.part.setPlate n {}).plateStatus n).finishFree (.plate n) .done :=
      if_neg (by simp [unarmed, -Fin.getElem_fin])
    rw [released] at run
    have only : s.part.Only [.mem, .port, .plates] ((s.part.setPlate n {}).plateStatus n) :=
      ((Part.Only.refl _ _).setPlate).plateStatus
    have touches : s.part.Touches [plateRange n] ((s.part.setPlate n {}).plateStatus n) :=
      ((Part.Touches.refl _ _).setPlate).plateStatus (by simp)
    have plates : ((s.part.setPlate n {}).plateStatus n).plates = s.part.plates.set n {} := Part.plateStatus_plates _ _
    generalize (s.part.setPlate n {}).plateStatus n = q at run only touches plates
    obtain ⟨detail, ended⟩ := Part.finishFree_ended (r := .plate n) (c := .done) (only .units (by simp)) touches
    have all := (only.mono (more := [.mem, .port, .plates, .units, .freeReads]) (by simp)).finishFree
      (r := .plate n) (c := .done)
    exact ⟨_, detail, run, (Part.finishFree_plates _ _ _).trans plates, ended, State.part_congr all.eq_pick,
      (touches.finishFree_plate (by simp)).kept⟩
  · have refused : s.part.doRelease n = s.part.finish (.plate n) .inUse s.part.plates[n].state.code := if_pos armed
    rw [refused] at run
    exact State.endsOnly_of_finish run

/-! ## CLEAR_COUNTERS (R47) -/

/-- The counts that CLEAR_COUNTERS takes back. -/
def Part.withoutCounts (p : Part) : Part :=
  { p with
    reports := { p.reports with damage := Vector.replicate 4 0 }
    parsers := p.parsers.map Parser.clearCounters }

/-- Settles O54. -/
theorem clearCounters : Obligations.ClearCounters := by
  intro s runs
  have run : exec .clearCounters s = .next { s with part := s.part.doClearCounters } := by
    rw [exec_clearCounters, onPart_runs runs]
  have start : s.part.Only [.mem, .port, .reports, .parsers] s.part.withoutCounts := by
    intro x hx
    cases x
    case reports => exact absurd (by simp) hx
    case parsers => exact absurd (by simp) hx
    all_goals rfl
  have shown := ((Part.Only.refl [.mem, .port] s.part.withoutCounts).headerWrite (g := .damage)).forEach
    (fun (p : Part) (k : Fin 4) => p.headerWrite (.stream k)) fun a _ => (Part.Only.refl _ a).headerWrite
  have touches : s.part.Touches [headerRange] (forEach 4 (fun (p : Part) k => p.headerWrite (.stream k))
      (s.part.withoutCounts.headerWrite .damage)) :=
    (((Part.Touches.refl _ s.part).tables s.part.withoutCounts).headerWrite (by simp)).forEach _ fun a _ =>
      (Part.Touches.refl _ a).headerWrite (by simp)
  have clears : s.part.doClearCounters = (forEach 4 (fun (p : Part) k => p.headerWrite (.stream k))
      (s.part.withoutCounts.headerWrite .damage)).finishFree .directory .done := rfl
  rw [clears] at run
  generalize forEach 4 (fun (p : Part) k => p.headerWrite (.stream k)) (s.part.withoutCounts.headerWrite .damage) = q
    at run shown touches
  have only := (start.trans (shown.mono (by simp)))
  obtain ⟨detail, ended⟩ := Part.finishFree_ended (r := .directory) (c := .done) (only .units (by simp)) touches
  have all := (only.mono (more := [.mem, .port, .reports, .parsers, .units, .freeReads]) (by simp)).finishFree
    (r := .directory) (c := .done)
  have reports : q.reports = s.part.withoutCounts.reports := shown .reports (by simp)
  have parsers : q.parsers = s.part.withoutCounts.parsers := shown .parsers (by simp)
  refine ⟨_, detail, run, (Part.finishFree_reports _ _ _).trans reports, fun k => ?_, ended,
    State.part_congr all.eq_pick,
    ((touches.mono (by simp)).finishFree (by simp)).kept⟩
  dsimp only
  rw [Part.finishFree_parsers, parsers]
  exact Vector.getElem_map _ _

end Sys2Proof.Machine
end

section
/-! SUPPORT. Window LOAD and CLOSE (R172 to R175). -/

namespace Sys2Proof.Machine

/-! ## The checks of a LOAD (R172) -/

theorem rangesMeet_iff (a n b m : Nat) : rangesMeet a n b m = true ↔ a < b + m ∧ b < a + n := by
  rw [rangesMeet, Bool.and_eq_true, decide_eq_true_iff, decide_eq_true_iff]

theorem Window.live_iff (w : Window) : w.live = true ↔ w.state ≠ .inactive := by rw [Window.live, bne_iff_ne]

theorem Plate.outgrows_iff (x : Plate) (k size : Nat) :
    x.outgrows k size = true ↔ (x.state = .waiting ∨ x.state = .ready ∨ x.state = .queued) ∧ x.copy.channel.val = k
      ∧ size < x.copy.width / 8 * x.copy.height := by
  rw [Plate.outgrows, Bool.and_eq_true, Bool.and_eq_true, Plate.open_, Plate.listed, Bool.or_eq_true, Bool.or_eq_true,
    beq_iff_eq, beq_iff_eq, beq_iff_eq, beq_iff_eq, decide_eq_true_iff, and_assoc]
  rfl

theorem WindowFields.class?_eq {f : WindowFields} {cls : WindowClass}
    (known : (f.cls = 1 ∧ f.binding < 4 ∧ cls = .intake) ∨ (f.cls = 2 ∧ f.binding < 2 ∧ cls = .plate)) :
    f.class? = some cls := by
  rcases known with ⟨one, four, rfl⟩ | ⟨two, below, rfl⟩
  · exact if_pos ⟨one, four⟩
  · exact (if_neg fun h => by omega).trans (if_pos ⟨two, below⟩)

theorem WindowFields.class?_none {f : WindowFields} (intake : ¬ (f.cls = 1 ∧ f.binding < 4))
    (plate : ¬ (f.cls = 2 ∧ f.binding < 2)) : f.class? = none := (if_neg intake).trans (if_neg plate)

theorem Part.findWindow_none {p : Part} {test : Window → Bool} (none : ∀ m : Fin 16, test p.windows[m] = false) :
    p.findWindow test = Option.none := findNumbered_none_of none

theorem Part.findWindow_lowest {p : Part} {test : Window → Bool} {m : Fin 16} (hit : test p.windows[m] = true)
    (below : ∀ j : Fin 16, j < m → test p.windows[j] = false) : p.findWindow test = some m :=
  findNumbered_lowest hit below

section
variable {p : Part} {n : Fin 16} {f : WindowFields} {cls : WindowClass}

/-- Checks 7 to 9 of R172: the other windows, and the plates of the channel. -/
def Part.neighbourRefusal (p : Part) (f : WindowFields) (cls : WindowClass) : Option (ResultCode × Nat) :=
  match p.findWindow fun w => w.live && rangesMeet f.base f.size w.base w.size with
  | some m => some (.overlap, m.val)
  | none =>
    match p.findWindow fun w => w.live && w.cls == some cls && w.binding == f.binding with
    | some m => some (.inUse, m.val + 32)
    | none =>
      match cls with
      | .intake => none
      | .plate => (p.outgrown f.binding f.size).map fun m => (.badParam, 64 + m.val)

/-- Checks 3 to 9 of R172, for a record of a class. -/
def Part.placeRefusal (p : Part) (f : WindowFields) (cls : WindowClass) : Option (ResultCode × Nat) :=
  if f.base % 4096 ≠ 0 then some (.badParam, 2)
  else if f.size % 4096 ≠ 0 ∨ f.size < 65536 ∨ 268435456 < f.size then some (.badParam, 3)
  else if Config.addressSpace < f.base + f.size then some (.badParam, 4)
  else if rangesMeet f.base f.size p.base Config.controlArea then some (.overlap, 16)
  else p.neighbourRefusal f cls

theorem Part.windowRefusal_placed (free : p.windows[n].state = .inactive) (known : f.class? = some cls) :
    p.windowRefusal n f = p.placeRefusal f cls := by
  have dead : ¬ p.windows[n].live = true := fun h => (p.windows[n].live_iff.mp h) free
  unfold Part.windowRefusal
  rw [if_neg dead, known]
  rfl

theorem Part.windowRefusal_live (live : p.windows[n].state ≠ .inactive) :
    p.windowRefusal n f = some (.inUse, p.windows[n].state.code) := if_pos (p.windows[n].live_iff.mpr live)

theorem Part.windowRefusal_class (free : p.windows[n].state = .inactive) (unknown : f.class? = none) :
    p.windowRefusal n f = some (.badParam, 1) := by
  have dead : ¬ p.windows[n].live = true := fun h => (p.windows[n].live_iff.mp h) free
  unfold Part.windowRefusal
  rw [if_neg dead, unknown]

theorem Part.placeRefusal_base (bad : f.base % 4096 ≠ 0) : p.placeRefusal f cls = some (.badParam, 2) := if_pos bad

variable (base : f.base % 4096 = 0)
include base

theorem Part.placeRefusal_size (bad : f.size % 4096 ≠ 0 ∨ f.size < 65536 ∨ 268435456 < f.size) :
    p.placeRefusal f cls = some (.badParam, 3) := (if_neg (not_not.mpr base)).trans (if_pos bad)

variable (size : f.size % 4096 = 0 ∧ 65536 ≤ f.size ∧ f.size ≤ 268435456)
include size

theorem Part.placeRefusal_end (bad : 2 ^ 40 < f.base + f.size) : p.placeRefusal f cls = some (.badParam, 4) :=
  (if_neg (not_not.mpr base)).trans ((if_neg (by omega)).trans (if_pos bad))

variable (inSpace : f.base + f.size ≤ 2 ^ 40)
include inSpace

theorem Part.placeRefusal_control (meets : f.base < p.base + 1048576 ∧ p.base < f.base + f.size) :
    p.placeRefusal f cls = some (.overlap, 16) :=
  (if_neg (not_not.mpr base)).trans ((if_neg (by omega)).trans ((if_neg (not_lt.mpr inSpace)).trans
    (if_pos ((rangesMeet_iff _ _ _ _).mpr meets))))

variable (apart : f.base + f.size ≤ p.base ∨ p.base + 1048576 ≤ f.base)
include apart

theorem Part.placeRefusal_apart :
    p.placeRefusal f cls = p.neighbourRefusal f cls :=
  (if_neg (not_not.mpr base)).trans ((if_neg (by omega)).trans ((if_neg (not_lt.mpr inSpace)).trans
    (if_neg fun meets => by
      rw [rangesMeet_iff] at meets
      simp only [Config.controlArea] at meets
      omega)))

end

/-! ## The other windows and the plates of the channel -/

/-- A window that shares a byte with the record's range (R172, check 7). -/
def Part.meetsWindow (p : Part) (f : WindowFields) (m : Fin 16) : Prop :=
  p.windows[m].state ≠ .inactive ∧ f.base < p.windows[m].base + p.windows[m].size
    ∧ p.windows[m].base < f.base + f.size

/-- A window of the record's class and binding (R172, check 8). -/
def Part.bindsWindow (p : Part) (f : WindowFields) (cls : WindowClass) (m : Fin 16) : Prop :=
  p.windows[m].state ≠ .inactive ∧ p.windows[m].cls = some cls ∧ p.windows[m].binding = f.binding

/-- A plate of the channel that the window is too small for (R172, check 9). -/
def Part.outgrows (p : Part) (f : WindowFields) (m : Fin 64) : Prop :=
  (p.plates[m].state = .waiting ∨ p.plates[m].state = .ready ∨ p.plates[m].state = .queued)
    ∧ p.plates[m].copy.channel.val = f.binding
    ∧ f.size < p.plates[m].copy.width / 8 * p.plates[m].copy.height

section
variable {p : Part} {f : WindowFields} {cls : WindowClass}

theorem Part.meetsWindow_iff (m : Fin 16) :
    (p.windows[m].live && rangesMeet f.base f.size p.windows[m].base p.windows[m].size) = true
      ↔ p.meetsWindow f m := by
  rw [Bool.and_eq_true, Window.live_iff, rangesMeet_iff]
  rfl

theorem Part.bindsWindow_iff (m : Fin 16) :
    (p.windows[m].live && p.windows[m].cls == some cls && p.windows[m].binding == f.binding) = true
      ↔ p.bindsWindow f cls m := by
  rw [Bool.and_eq_true, Bool.and_eq_true, Window.live_iff, beq_iff_eq, beq_iff_eq, and_assoc]
  rfl

theorem Part.neighbourRefusal_meets {m : Fin 16} (meets : p.meetsWindow f m)
    (below : ∀ j, j < m → ¬ p.meetsWindow f j) :
    p.neighbourRefusal f cls = some (.overlap, m.val) := by
  have found := Part.findWindow_lowest
    (test := fun w : Window => w.live && rangesMeet f.base f.size w.base w.size) ((Part.meetsWindow_iff m).mpr meets)
    fun j lower => Bool.eq_false_iff.mpr fun h => below j lower ((Part.meetsWindow_iff j).mp h)
  unfold Part.neighbourRefusal
  rw [found]

variable (apart : ∀ m, ¬ p.meetsWindow f m)
include apart

theorem Part.noMeetingWindow : p.findWindow (fun w => w.live && rangesMeet f.base f.size w.base w.size) = none :=
  Part.findWindow_none (test := fun w : Window => w.live && rangesMeet f.base f.size w.base w.size)
    fun m => Bool.eq_false_iff.mpr fun h => apart m ((Part.meetsWindow_iff m).mp h)

theorem Part.neighbourRefusal_binds {m : Fin 16} (binds : p.bindsWindow f cls m)
    (below : ∀ j, j < m → ¬ p.bindsWindow f cls j) : p.neighbourRefusal f cls = some (.inUse, m.val + 32) := by
  have found := Part.findWindow_lowest
    (test := fun w : Window => w.live && w.cls == some cls && w.binding == f.binding)
    ((Part.bindsWindow_iff m).mpr binds)
    fun j lower => Bool.eq_false_iff.mpr fun h => below j lower ((Part.bindsWindow_iff j).mp h)
  unfold Part.neighbourRefusal
  rw [Part.noMeetingWindow apart, found]

variable (unbound : ∀ m, ¬ p.bindsWindow f cls m)
include unbound

theorem Part.neighbourRefusal_free :
    p.neighbourRefusal f cls
      = if cls = .intake then none else (p.outgrown f.binding f.size).map fun m => (.badParam, 64 + m.val) := by
  have noBinding := Part.findWindow_none
    (test := fun w : Window => w.live && w.cls == some cls && w.binding == f.binding)
    fun m => Bool.eq_false_iff.mpr fun h => unbound m ((Part.bindsWindow_iff m).mp h)
  unfold Part.neighbourRefusal
  rw [Part.noMeetingWindow apart, noBinding]
  cases cls with
  | intake => rfl
  | plate => rfl

end

theorem Part.outgrown_lowest {p : Part} {f : WindowFields} {m : Fin 64} (outgrows : p.outgrows f m)
    (below : ∀ j, j < m → ¬ p.outgrows f j) : p.outgrown f.binding f.size = some m :=
  findNumbered_lowest (test := fun x : Plate => x.outgrows f.binding f.size) ((Plate.outgrows_iff _ _ _).mpr outgrows)
    fun j lower => Bool.eq_false_iff.mpr fun h => below j lower ((Plate.outgrows_iff _ _ _).mp h)

theorem Part.outgrown_none {p : Part} {f : WindowFields} (none : ∀ m, ¬ p.outgrows f m) :
    p.outgrown f.binding f.size = Option.none :=
  findNumbered_none_of (test := fun x : Plate => x.outgrows f.binding f.size)
    fun m => Bool.eq_false_iff.mpr fun h => none m ((Plate.outgrows_iff _ _ _).mp h)

/-! ## LOAD -/

theorem Part.doWindowLoad_refused {p : Part} {n : Fin 16} {c : ResultCode} {d : Nat}
    (refused : p.windowRefusal n (parseWindow (p.copyOf (.window n))) = some (c, d)) :
    p.doWindowLoad n = p.finish (.window n) c d := by
  unfold Part.doWindowLoad
  dsimp only
  rw [refused]

theorem Part.doWindowLoad_accepted {p : Part} {n : Fin 16} {w : Window}
    (accepted : p.windowRefusal n (parseWindow (p.copyOf (.window n))) = none)
    (made : w = { state := .active, cls := (parseWindow (p.copyOf (.window n))).class?
                  binding := (parseWindow (p.copyOf (.window n))).binding
                  base := (parseWindow (p.copyOf (.window n))).base
                  size := (parseWindow (p.copyOf (.window n))).size }) :
    p.doWindowLoad n = (((p.setWindow n w).setUpParser w).statusWrite (.window n)).finishFree (.window n) .done := by
  unfold Part.doWindowLoad
  dsimp only
  rw [accepted, made]

namespace Part

theorem setUpParser_cases (p : Part) (w : Window) :
    p.setUpParser w = if w.cls = some .intake then p.changeParser w.stream Parser.setUp else p := by
  unfold Part.setUpParser
  cases h : w.cls with
  | none => rfl
  | some cls =>
    cases cls with
    | intake => rfl
    | plate => rfl

theorem setUpParser_only (p : Part) (w : Window) : p.Only [.mem, .port, .parsers] (p.setUpParser w) := by
  rw [setUpParser_cases]
  exact Only.ite ((Only.refl _ p).changeParser) (Only.refl _ p)

theorem setUpParser_touches (p : Part) (w : Window) : p.Touches [headerRange] (p.setUpParser w) := by
  rw [setUpParser_cases]
  split
  · exact (Touches.refl _ p).changeParser (by simp)
  · exact Touches.refl _ p

theorem setUpParser_get (p : Part) (w : Window) (k : Fin 4) :
    (p.setUpParser w).parsers[k]
      = if w.cls = some .intake ∧ k = w.stream then p.parsers[k].setUp else p.parsers[k] := by
  rw [setUpParser_cases]
  by_cases intake : w.cls = some .intake
  · rw [if_pos intake, changeParser_parsers]
    by_cases same : k = w.stream
    · subst same
      rw [if_pos ⟨intake, rfl⟩]
      exact Vector.set_same
    · rw [if_neg fun h => same h.2]
      exact Vector.set_other same
  · rw [if_neg intake, if_neg fun h => intake h.1]

end Part

/-- A refused LOAD changes nothing else. -/
theorem State.windowLoad_refused {s : State} {n : Fin 16}
    (runs : s.runs (.window n) (some .windowLoad)) {c : ResultCode}
    {d : Nat} (refused : s.part.windowRefusal n (parseWindow (s.part.copyOf (.window n))) = some (c, d)) :
    s.endsOnly (.windowLoad n) (.window n) c (BitVec.ofNat 32 d) := by
  refine State.endsOnly_of_finish ?_
  rw [exec_windowLoad, onPart_runs runs, Part.doWindowLoad_refused refused]

/-- Settles O41: the checks in their order, then the window as its record has it. -/
theorem windowLoad : Obligations.WindowLoad := by
  refine ⟨fun s n cls runs => ?accepted, fun s n runs => ⟨fun live => ?live, fun free intake plate => ?unknown⟩,
    fun s n runs => ?refused⟩
  case live => exact State.windowLoad_refused runs (Part.windowRefusal_live live)
  case unknown =>
    exact State.windowLoad_refused runs (Part.windowRefusal_class free (WindowFields.class?_none intake plate))
  case refused =>
    intro f refused cls meets bound outgrows passed2 passed3 passed4 passed5 passed6 passed7 passed8
    have place (h : passed2) : s.part.windowRefusal n f = s.part.placeRefusal f cls := by
      obtain ⟨free, known⟩ := h
      refine Part.windowRefusal_placed free (WindowFields.class?_eq ?_)
      rcases known with ⟨one, four⟩ | ⟨two, below⟩
      · exact .inl ⟨one, four, if_pos one⟩
      · exact .inr ⟨two, below, if_neg (by omega)⟩
    have neighbours (h : passed6) : s.part.windowRefusal n f = s.part.neighbourRefusal f cls := by
      obtain ⟨⟨⟨⟨known, base⟩, size⟩, inSpace⟩, apart⟩ := h
      exact (place known).trans (Part.placeRefusal_apart base size inSpace apart)
    refine ⟨fun h bad => ?_, fun h bad => ?_, fun h bad => ?_, fun h low high => ?_, fun h m meet below => ?_,
      fun h m bind below => ?_, fun h two m grows below => ?_⟩
    · exact State.windowLoad_refused runs ((place h).trans (Part.placeRefusal_base bad))
    · obtain ⟨known, base⟩ := h
      exact State.windowLoad_refused runs ((place known).trans (Part.placeRefusal_size base bad))
    · obtain ⟨⟨known, base⟩, size⟩ := h
      exact State.windowLoad_refused runs ((place known).trans (Part.placeRefusal_end base size bad))
    · obtain ⟨⟨⟨known, base⟩, size⟩, inSpace⟩ := h
      exact State.windowLoad_refused runs
        ((place known).trans (Part.placeRefusal_control base size inSpace ⟨high, low⟩))
    · exact State.windowLoad_refused runs ((neighbours h).trans (Part.neighbourRefusal_meets meet below))
    · obtain ⟨h, apart⟩ := h
      exact State.windowLoad_refused runs ((neighbours h).trans (Part.neighbourRefusal_binds apart bind below))
    · obtain ⟨⟨h, apart⟩, unbound⟩ := h
      have plate : cls ≠ .intake := by
        have : cls = .plate := if_neg (by omega)
        rw [this]
        exact WindowClass.noConfusion
      refine State.windowLoad_refused runs ((neighbours h).trans ((Part.neighbourRefusal_free apart unbound).trans ?_))
      rw [if_neg plate, Part.outgrown_lowest grows below]
      rfl
  case accepted =>
    intro f free known base size low high inSpace apart others fits
    have noMeeting (m : Fin 16) : ¬ s.part.meetsWindow f m := by
      rintro ⟨live, left, right⟩
      have := (others m live).1
      omega
    have noBinding (m : Fin 16) : ¬ s.part.bindsWindow f cls m := fun ⟨live, bind⟩ => (others m live).2 bind
    have noPlate (plate : cls = .plate) (m : Fin 64) : ¬ s.part.outgrows f m := fun ⟨open', channel, more⟩ =>
      absurd (fits plate m open' channel) (not_le.mpr more)
    have accepted : s.part.windowRefusal n f = none := by
      rw [Part.windowRefusal_placed free (WindowFields.class?_eq known),
        Part.placeRefusal_apart base ⟨size, low, high⟩ inSpace apart, Part.neighbourRefusal_free noMeeting noBinding]
      cases cls with
      | intake => rfl
      | plate => rw [if_neg WindowClass.noConfusion, Part.outgrown_none (noPlate rfl)]; rfl
    have run : exec (.windowLoad n) s = .next { s with part := s.part.doWindowLoad n } := by
      rw [exec_windowLoad, onPart_runs runs]
    set w : Window := { state := .active, cls := some cls, binding := f.binding, base := f.base, size := f.size } with hw
    rw [Part.doWindowLoad_accepted (w := w) accepted (by rw [hw, WindowFields.class?_eq known])] at run
    have only : s.part.Only [.mem, .port, .windows, .parsers]
        (((s.part.setWindow n w).setUpParser w).statusWrite (.window n)) :=
      ((((Part.Only.refl _ _).setWindow).trans
        (((s.part.setWindow n w).setUpParser_only w).mono (by simp)))).statusWrite
    have touches : s.part.Touches [resultRange (.window n), headerRange]
        (((s.part.setWindow n w).setUpParser w).statusWrite (.window n)) :=
      (((Part.Touches.refl _ _).setWindow).trans
        (((s.part.setWindow n w).setUpParser_touches w).mono (by simp))).statusWrite
        (by simp [statusRange_window])
    have windows : (((s.part.setWindow n w).setUpParser w).statusWrite (.window n)).windows = s.part.windows.set n w :=
      (Part.statusWrite_windows _ _).trans ((s.part.setWindow n w).setUpParser_only w .windows (by simp))
    have parsers : (((s.part.setWindow n w).setUpParser w).statusWrite (.window n)).parsers
        = ((s.part.setWindow n w).setUpParser w).parsers := Part.statusWrite_parsers _ _
    have setUp (k : Fin 4) := (s.part.setWindow n w).setUpParser_get w k
    generalize ((s.part.setWindow n w).setUpParser w).statusWrite (.window n) = q at run only touches windows parsers
    obtain ⟨detail, ended⟩ := Part.finishFree_ended (r := .window n) (c := .done) (only .units (by simp)) touches
    have all := (only.mono (more := [.mem, .port, .windows, .parsers, .units, .freeReads]) (by simp)).finishFree
      (r := .window n) (c := .done)
    refine ⟨_, detail, run, (Part.finishFree_windows _ _ _).trans windows, fun k => ?_, ended,
      State.part_congr all.eq_pick, (touches.finishFree (by simp)).kept⟩
    dsimp only
    rw [Part.finishFree_parsers, parsers, setUp]
    refine if_congr ?_ rfl rfl
    rw [hw]
    have small (intake : cls = .intake) : f.binding % 4 = f.binding := by
      rcases known with ⟨-, four, -⟩ | ⟨-, -, plate⟩
      · exact Nat.mod_eq_of_lt four
      · exact absurd (plate.symm.trans intake) WindowClass.noConfusion
    refine ⟨fun ⟨intake, stream⟩ => ?_, fun ⟨intake, stream⟩ => ?_⟩
    · have class' : cls = .intake := Option.some.inj intake
      exact ⟨class', (congrArg Fin.val stream).trans (small class')⟩
    · exact ⟨congrArg some intake, Fin.ext (stream.trans (small intake).symm)⟩

/-! ## CLOSE (R174, R175) -/

section
variable {p : Part} {n : Fin 16}

theorem Part.doWindowClose_inactive (inactive : p.windows[n].state = .inactive) :
    p.doWindowClose n = p.finish (.window n) .done 0 := by
  unfold Part.doWindowClose
  simp only [inactive]
  rfl

theorem Part.doWindowClose_plate (active : p.windows[n].state = .active) (plate : p.windows[n].cls = some .plate)
    (idle : p.channels[p.windows[n].channel].state ≠ .exposing) : p.doWindowClose n = p.inactivate n := by
  unfold Part.doWindowClose
  simp only [active, plate]
  rw [if_neg idle]

theorem Part.doWindowClose_exposing (active : p.windows[n].state = .active) (plate : p.windows[n].cls = some .plate)
    (exposing : p.channels[p.windows[n].channel].state = .exposing) :
    p.doWindowClose n
      = ((p.setWindow n { p.windows[n] with state := .closing }).setStage (.window n) .running).statusWrite
        (.window n) := by
  unfold Part.doWindowClose
  simp only [active, plate]
  rw [if_pos exposing]

theorem Part.closeParser_idle {k : Fin 4} (away : p.parsers[k].state ≠ .payload) :
    p.closeParser k = p.changeParser k Parser.closed := if_neg away

theorem Part.doWindowClose_intake (active : p.windows[n].state = .active) (intake : p.windows[n].cls = some .intake)
    (away : p.parsers[p.windows[n].stream].state ≠ .payload) :
    p.doWindowClose n
      = (((p.setWindow n { p.windows[n] with state := .inactive }).changeParser p.windows[n].stream
          Parser.closed).statusWrite (.window n)).finish (.window n) .done 1 := by
  unfold Part.doWindowClose
  simp only [active, intake]
  rw [Part.closeParser_idle (p := p.setWindow n _) away]
  rfl

end

/-- A window replaced and shown. -/
theorem Part.windowShown (p : Part) (n : Fin 16) (w : Window) :
    p.Only [.mem, .port, .windows] ((p.setWindow n w).statusWrite (.window n))
      ∧ p.Touches [resultRange (.window n)] ((p.setWindow n w).statusWrite (.window n))
      ∧ ((p.setWindow n w).statusWrite (.window n)).windows = p.windows.set n w :=
  ⟨((Part.Only.refl _ _).setWindow).statusWrite,
    ((Part.Touches.refl _ _).setWindow).statusWrite (by simp [statusRange_window]), Part.statusWrite_windows _ _⟩

theorem Part.setStage_unit (p : Part) (r : RecordId) (st : CmdStage) :
    (p.setStage r st).unit r = { p.unit r with stage := st } := Part.unit_setRecord _ _ _

theorem Part.setStage_unit_ne (p : Part) (r r' : RecordId) (st : CmdStage) (other : r' ≠ r) :
    (p.setStage r st).unit r' = p.unit r' := Part.unit_setRecord_ne _ _ _ _ other

theorem Part.unit_congr {p q : Part} (units : q.units = p.units) (r : RecordId) : q.unit r = p.unit r := by
  rw [Part.unit, Part.unit, units]

/-- Settles O42, by the window's state and class. -/
theorem windowClose : Obligations.WindowClose := by
  intro s n runs w
  have run : exec (.windowClose n) s = .next { s with part := s.part.doWindowClose n } := by
    rw [exec_windowClose, onPart_runs runs]
  refine ⟨fun inactive => ?inactive, fun active plate idle => ?plate, fun active plate exposing => ?closing,
    fun active intake away => ?intake⟩
  case inactive =>
    rw [Part.doWindowClose_inactive inactive] at run
    exact State.endsOnly_of_finish run
  case plate =>
    rw [Part.doWindowClose_plate active plate idle, Part.inactivate] at run
    obtain ⟨only, touches, windows⟩ := s.part.windowShown n { w with state := .inactive }
    generalize (s.part.setWindow n { w with state := .inactive }).statusWrite (.window n) = q
      at run only touches windows
    exact ⟨_, run, (Part.finish_windows _ _ _ _).trans windows, Part.finish_ended (only .units (by simp)) touches,
      State.part_congr ((only.mono (more := [.mem, .port, .windows, .units]) (by simp)).finish).eq_pick,
      (touches.finish (by simp)).kept⟩
  case closing =>
    rw [Part.doWindowClose_exposing active plate exposing] at run
    have start : s.part.Only [.mem, .port, .windows, .units]
        ((s.part.setWindow n { w with state := .closing }).setStage (.window n) .running) :=
      ((Part.Only.refl _ _).setWindow).setStage
    have touches : s.part.Touches [resultRange (.window n)]
        (((s.part.setWindow n { w with state := .closing }).setStage (.window n) .running).statusWrite (.window n)) :=
      (((Part.Touches.refl _ _).setWindow).setStage).statusWrite (by simp [statusRange_window])
    have own := (s.part.setWindow n { w with state := .closing }).setStage_unit (.window n) .running
    have others := fun r => (s.part.setWindow n { w with state := .closing }).setStage_unit_ne (.window n) r .running
    have windows : ((s.part.setWindow n { w with state := .closing }).setStage (.window n) .running).windows
      = s.part.windows.set n { w with state := .closing } := rfl
    generalize (s.part.setWindow n { w with state := .closing }).setStage (.window n) .running = q
      at run start touches own others windows
    have shown : (q.statusWrite (.window n)).units = q.units := Part.statusWrite_units _ _
    exact ⟨_, run, (Part.statusWrite_windows _ _).trans windows, (Part.unit_congr shown _).trans own,
      fun r other => (Part.unit_congr shown _).trans (others r other), State.part_congr start.statusWrite.eq_pick,
      touches.kept⟩
  case intake =>
    rw [Part.doWindowClose_intake active intake away] at run
    have start : s.part.Only [.mem, .port, .windows, .parsers]
        ((s.part.setWindow n { w with state := .inactive }).changeParser w.stream Parser.closed) :=
      ((Part.Only.refl _ _).setWindow).changeParser
    have touches : s.part.Touches [resultRange (.window n), headerRange]
        ((s.part.setWindow n { w with state := .inactive }).changeParser w.stream Parser.closed) :=
      ((Part.Touches.refl _ _).setWindow).changeParser (by simp)
    have windows : ((s.part.setWindow n { w with state := .inactive }).changeParser w.stream Parser.closed).windows
      = s.part.windows.set n { w with state := .inactive } := rfl
    have parsers := (s.part.setWindow n { w with state := .inactive }).changeParser_parsers w.stream Parser.closed
    generalize (s.part.setWindow n { w with state := .inactive }).changeParser w.stream Parser.closed = a
      at run start touches windows parsers
    have only := start.statusWrite (r := .window n)
    have kept := touches.statusWrite (r := .window n) (by simp [statusRange_window])
    have windows' := (a.statusWrite_windows (.window n)).trans windows
    have parsers' := (a.statusWrite_parsers (.window n)).trans parsers
    generalize a.statusWrite (.window n) = q at run only kept windows' parsers'
    exact ⟨_, run, (Part.finish_windows _ _ _ _).trans windows', (Part.finish_parsers _ _ _ _).trans parsers',
      Part.finish_ended (only .units (by simp)) kept,
      State.part_congr ((only.mono (more := [.mem, .port, .windows, .parsers, .units]) (by simp)).finish).eq_pick,
      (kept.finish (by simp)).kept⟩

end Sys2Proof.Machine
end

section
/-! SUPPORT. Screen set LOAD and its completion (R77, R78, R90 to R93). -/

namespace Sys2Proof.Machine

/-! ## The checks of a LOAD (R77, R90) -/

/-- A search of all numbers by value finds the lowest one that has a value. -/
theorem findSome_lowest {n : Nat} {β : Type} {f : Fin n → Option β} {a : Fin n} {x : β} (hit : f a = some x)
    (below : ∀ b, b < a → f b = none) : (List.finRange n).findSome? f = some x := by
  obtain ⟨before, after, list⟩ := List.append_of_mem (List.mem_finRange a)
  have sorted := List.pairwise_lt_finRange n
  rw [list, List.pairwise_append] at sorted
  obtain ⟨-, -, less⟩ := sorted
  exact List.findSome?_eq_some_iff.mpr
    ⟨before, a, after, list, hit, fun b hb => below b (less b hb a List.mem_cons_self)⟩

section
variable {f : SetFields}

theorem curveFault_point {k : Fin 17} (high : 4095 < f.points[k]) (below : ∀ j : Fin 17, j < k → f.points[j] ≤ 4095) :
    curveFault f = some k.val := by
  have found : f.points.toList.findIdx? (fun x => decide (4095 < x)) = some k.val := by
    refine List.findIdx?_eq_some_iff_getElem.mpr ⟨by simp, ?_, fun j lower => ?_⟩
    · rw [Vector.getElem_toList]
      exact decide_eq_true high
    · rw [Vector.getElem_toList, decide_eq_true_iff, not_lt]
      exact below ⟨j, lower.trans k.isLt⟩ lower
  unfold curveFault
  rw [found]

variable (points : ∀ k : Fin 17, f.points[k] ≤ 4095)
include points

theorem curveFault_dots :
    curveFault f = if 4095 < f.minDot then some 17 else if 4095 < f.maxDot then some 18
      else if f.maxDot < f.minDot then some 19 else none := by
  have none : f.points.toList.findIdx? (fun x => decide (4095 < x)) = Option.none := by
    refine List.findIdx?_eq_none_iff.mpr fun x hx => ?_
    obtain ⟨i, hi, rfl⟩ := List.getElem_of_mem hx
    rw [Vector.getElem_toList, decide_eq_false_iff_not, not_lt]
    exact points ⟨i, by simpa using hi⟩
  unfold curveFault
  rw [none]

theorem curveFault_none (dots : f.minDot ≤ 4095 ∧ f.maxDot ≤ 4095 ∧ f.minDot ≤ f.maxDot) : curveFault f = none := by
  rw [curveFault_dots points, if_neg (by omega), if_neg (by omega), if_neg (by omega)]

end

theorem setFault_curve {f : SetFields} {d : Nat} (fault : curveFault f = some d) : setFault f = some d := by
  unfold setFault
  rw [fault]

/-- Checks 3 to 8 of R90. -/
def SetFields.tileFault (f : SetFields) : Option Nat :=
  if f.w < 8 ∨ 128 < f.w then some 20
  else if f.h < 8 ∨ 128 < f.h then some 21
  else if f.w ≤ f.s then some 22
  else if 7 < f.start then some 23
  else if startAllowed f.start (areaCount (f.w * f.h)) = false then some 24
  else if f.source % 64 ≠ 0 ∨ Config.addressSpace < f.source + 2 * (f.w * f.h) then some 25
  else none

theorem setFault_tile {f : SetFields} (sound : curveFault f = none) : setFault f = f.tileFault := by
  unfold setFault
  rw [sound]
  rfl

theorem startAllowed_iff (start count : Nat) : startAllowed start count = true ↔ start % count = 0 := beq_iff_eq

section
variable {x : ScreenSet} {owners : Vector (Option (Fin 8)) 8} {n : Fin 8} {f : SetFields}

theorem loadRefusal_used (used : x.use ≠ 0) : loadRefusal x owners n f = some (.inUse, x.use) := if_pos used

variable (unused : x.use = 0)
include unused

theorem loadRefusal_fault {d : Nat} (fault : setFault f = some d) :
    loadRefusal x owners n f = some (.badParam, d) := by
  unfold loadRefusal
  rw [if_neg (not_not.mpr unused), fault]

theorem loadRefusal_areas (sound : setFault f = none) :
    loadRefusal x owners n f = (areaTaken owners n f.start (areaCount (f.w * f.h))).map fun x =>
      (.areaTaken, packBytes x.1.val x.2.val) := by
  unfold loadRefusal
  rw [if_neg (not_not.mpr unused), sound]

end

theorem needsArea_iff (start count a : Nat) : needsArea start count a = true ↔ start ≤ a ∧ a < start + count := by
  rw [needsArea, Bool.and_eq_true, decide_eq_true_iff, decide_eq_true_iff]

section
variable {owners : Vector (Option (Fin 8)) 8} {n : Fin 8} {start count : Nat}

theorem areaTaken_lowest {a m : Fin 8} (needs : start ≤ a.val ∧ a.val < start + count) (owned : owners[a] = some m)
    (other : m ≠ n)
    (below : ∀ b : Fin 8, b < a → start ≤ b.val ∧ b.val < start + count → owners[b] = none ∨ owners[b] = some n) :
    areaTaken owners n start count = some (a, m) := by
  refine findSome_lowest (a := a) ?_ fun b lower => ?_
  · rw [owned]
    exact if_pos ⟨(needsArea_iff _ _ _).mpr needs, other⟩
  · cases h : owners[b] with
    | none => rfl
    | some o =>
      refine if_neg fun ⟨needed, foreign⟩ => ?_
      rcases below b lower ((needsArea_iff _ _ _).mp needed) with free | own
      · exact nomatch h.symm.trans free
      · exact foreign (Option.some.inj (h.symm.trans own))

theorem areaTaken_none
    (free : ∀ b : Fin 8, start ≤ b.val ∧ b.val < start + count → owners[b] = none ∨ owners[b] = some n) :
    areaTaken owners n start count = none := by
  refine List.findSome?_eq_none_iff.mpr fun b _ => ?_
  cases h : owners[b] with
  | none => rfl
  | some o =>
    refine if_neg fun ⟨needed, foreign⟩ => ?_
    rcases free b ((needsArea_iff _ _ _).mp needed) with none | own
    · exact nomatch h.symm.trans none
    · exact foreign (Option.some.inj (h.symm.trans own))

theorem takeAreas_get (a : Fin 8) :
    (takeAreas owners n start count)[a]
      = if needsArea start count a.val then some n else if owners[a] = some n then none else owners[a] :=
  Vector.getElem_ofFn _

end

theorem decreasingPoints_iff (points : Vector Nat 17) :
    decreasingPoints points.toList = true ↔ ∃ k : Fin 16, points[k.val + 1] < points[k.val] := by
  rw [decreasingPoints, List.any_eq_true]
  constructor
  · rintro ⟨q, mem, less⟩
    obtain ⟨i, hi, rfl⟩ := List.getElem_of_mem mem
    have small : i < 16 := by
      rw [List.length_zip, List.length_tail, Vector.length_toList] at hi
      omega
    rw [List.getElem_zip, decide_eq_true_iff, List.getElem_tail, Vector.getElem_toList, Vector.getElem_toList] at less
    exact ⟨⟨i, small⟩, less⟩
  · rintro ⟨k, less⟩
    have inside : k.val < (points.toList.zip points.toList.tail).length := by
      rw [List.length_zip, List.length_tail, Vector.length_toList]
      omega
    refine ⟨_, List.getElem_mem inside, ?_⟩
    rw [List.getElem_zip, decide_eq_true_iff, List.getElem_tail, Vector.getElem_toList, Vector.getElem_toList]
    exact less

/-! ## LOAD (R90, R91) -/

theorem ScreenSet.loading_decreasing (x : ScreenSet) (f : SetFields) :
    (x.loading f).decreasing = decreasingPoints f.points.toList := rfl

theorem Part.doSetLoad_refused {p : Part} {n : Fin 8} {c : ResultCode} {d : Nat}
    (refused : loadRefusal p.sets[n] p.owners n (parseSet (p.copyOf (.screenSet n))) = some (c, d)) :
    p.doSetLoad n = p.finish (.screenSet n) c d := by
  unfold Part.doSetLoad
  dsimp only
  rw [refused]

theorem Part.doSetLoad_accepted {p : Part} {n : Fin 8} {x : ScreenSet}
    (accepted : loadRefusal p.sets[n] p.owners n (parseSet (p.copyOf (.screenSet n))) = none)
    (made : p.sets[n].loading (parseSet (p.copyOf (.screenSet n))) = x) :
    p.doSetLoad n
      = (((p.setSet n x).setOwners (takeAreas p.owners n x.start x.count)).setStage (.screenSet n) .running).statusWrite
          (.screenSet n) := by
  unfold Part.doSetLoad
  dsimp only
  rw [accepted, made]

theorem State.setLoad_refused {s : State} {n : Fin 8} (runs : s.runs (.screenSet n) (some .setLoad)) {c : ResultCode}
    {d : Nat} (refused : loadRefusal s.part.sets[n] s.part.owners n (parseSet (s.part.copyOf (.screenSet n)))
      = some (c, d)) :
    s.endsOnly (.screenSetLoad n) (.screenSet n) c (BitVec.ofNat 32 d) := by
  refine State.endsOnly_of_finish ?_
  rw [exec_screenSetLoad, onPart_runs runs, Part.doSetLoad_refused refused]

/-- Settles O46: the checks in their order, then the set as it enters LOADING. -/
theorem screenSetLoad : Obligations.ScreenSetLoad := by
  intro s n runs f refused areas needs unused curve dots width height shift start allowed placed
  have curveRefused (free : unused) {d : Nat} (fault : curveFault f = some d) : refused .badParam d :=
    State.setLoad_refused runs (loadRefusal_fault free (setFault_curve fault))
  have tileRefused (h : dots) {d : Nat} (fault : f.tileFault = some d) : refused .badParam d := by
    obtain ⟨⟨free, points⟩, inRange⟩ := h
    exact State.setLoad_refused runs
      (loadRefusal_fault free ((setFault_tile (curveFault_none points inRange)).trans fault))
  have areaCheck (h : placed) : loadRefusal s.part.sets[n] s.part.owners n f
      = (areaTaken s.part.owners n f.start areas).map fun x => (.areaTaken, packBytes x.1.val x.2.val) := by
    obtain ⟨⟨⟨⟨⟨⟨⟨⟨free, points⟩, inRange⟩, wide⟩, high⟩, shifted⟩, starts⟩, allows⟩, source⟩ := h
    refine loadRefusal_areas free ((setFault_tile (curveFault_none points inRange)).trans ?_)
    have allows' : startAllowed f.start (areaCount (f.w * f.h)) = true := (startAllowed_iff _ _).mpr allows
    unfold SetFields.tileFault
    rw [if_neg (by omega), if_neg (by omega), if_neg (by omega), if_neg (by omega), if_neg (by simp [allows']),
      if_neg (by simp only [Config.addressSpace]; omega)]
  refine ⟨fun used => State.setLoad_refused runs (loadRefusal_used used),
    fun free k high below => curveRefused free (curveFault_point high below),
    fun h high => ?_, fun h low high => ?_, fun h low low' less => ?_, fun h bad => ?_, fun h bad => ?_,
      fun h bad => ?_,
    fun h bad => ?_, fun h bad => ?_, fun h bad => ?_, fun h a m need owned other below => ?_, fun h free => ?_⟩
  · obtain ⟨free, points⟩ := h
    exact curveRefused free (by rw [curveFault_dots points, if_pos high])
  · obtain ⟨free, points⟩ := h
    exact curveRefused free (by rw [curveFault_dots points, if_neg (by omega), if_pos high])
  · obtain ⟨free, points⟩ := h
    exact curveRefused free (by rw [curveFault_dots points, if_neg (by omega), if_neg (by omega), if_pos less])
  · exact tileRefused h (if_pos bad)
  · obtain ⟨h, wide⟩ := h
    exact tileRefused h ((if_neg (by omega)).trans (if_pos bad))
  · obtain ⟨⟨h, wide⟩, high⟩ := h
    refine tileRefused h ((if_neg (by omega)).trans ((if_neg (by omega)).trans (if_pos (by omega))))
  · obtain ⟨⟨⟨h, wide⟩, high⟩, shifted⟩ := h
    exact tileRefused h ((if_neg (by omega)).trans ((if_neg (by omega)).trans ((if_neg (by omega)).trans (if_pos bad))))
  · obtain ⟨⟨⟨⟨h, wide⟩, high⟩, shifted⟩, starts⟩ := h
    have forbidden : startAllowed f.start (areaCount (f.w * f.h)) = false :=
      Bool.eq_false_iff.mpr fun allows => bad ((startAllowed_iff _ _).mp allows)
    unfold SetFields.tileFault at tileRefused
    refine tileRefused h ?_
    rw [if_neg (by omega), if_neg (by omega), if_neg (by omega), if_neg (by omega), if_pos forbidden]
  · obtain ⟨⟨⟨⟨⟨h, wide⟩, high⟩, shifted⟩, starts⟩, allows⟩ := h
    have allows' : startAllowed f.start (areaCount (f.w * f.h)) = true := (startAllowed_iff _ _).mpr allows
    unfold SetFields.tileFault at tileRefused
    refine tileRefused h ?_
    rw [if_neg (by omega), if_neg (by omega), if_neg (by omega), if_neg (by omega), if_neg (by simp [allows'])]
    exact if_pos bad
  · exact State.setLoad_refused runs ((areaCheck h).trans (by rw [areaTaken_lowest need owned other below]; rfl))
  · have accepted : loadRefusal s.part.sets[n] s.part.owners n f = none := by
      rw [areaCheck h, areaTaken_none free]
      rfl
    have notUsed : s.part.sets[n].use = 0 := h.1.1.1.1.1.1.1.1
    have run : exec (.screenSetLoad n) s = .next { s with part := s.part.doSetLoad n } := by
      rw [exec_screenSetLoad, onPart_runs runs]
    obtain ⟨x, loading⟩ : ∃ x, s.part.sets[n].loading f = x := ⟨_, rfl⟩
    rw [Part.doSetLoad_accepted accepted loading] at run
    have start' : s.part.Only [.mem, .port, .sets, .owners, .units] (((s.part.setSet n x).setOwners
        (takeAreas s.part.owners n x.start x.count)).setStage (.screenSet n) .running) :=
      (((Part.Only.refl _ _).setSet).setOwners).setStage
    have touches : s.part.Touches [resultRange (.screenSet n)] (((s.part.setSet n x).setOwners
        (takeAreas s.part.owners n x.start x.count)).setStage (.screenSet n) .running) :=
      (((Part.Touches.refl _ _).setSet).setOwners).setStage
    have before : ((s.part.setSet n x).setOwners (takeAreas s.part.owners n x.start x.count)).units
        = s.part.units := rfl
    have own := ((s.part.setSet n x).setOwners (takeAreas s.part.owners n x.start x.count)).setStage_unit
      (.screenSet n) .running
    have others := fun r (other : r ≠ .screenSet n) =>
      (((s.part.setSet n x).setOwners (takeAreas s.part.owners n x.start x.count)).setStage_unit_ne
        (.screenSet n) r .running other).trans (Part.unit_congr before r)
    rw [Part.unit_congr before] at own
    have sets : (((s.part.setSet n x).setOwners (takeAreas s.part.owners n x.start x.count)).setStage (.screenSet n)
      .running).sets = s.part.sets.set n x := rfl
    have owners : (((s.part.setSet n x).setOwners (takeAreas s.part.owners n x.start x.count)).setStage (.screenSet n)
      .running).owners = takeAreas s.part.owners n x.start x.count := rfl
    generalize ((s.part.setSet n x).setOwners (takeAreas s.part.owners n x.start x.count)).setStage (.screenSet n)
      .running = a at run start' touches own others sets owners
    have unit := Part.unit_congr (a.statusWrite_units (.screenSet n))
    have only := start'.statusWrite (r := .screenSet n)
    have kept := touches.statusWrite (r := .screenSet n) (by simp [statusRange_screenSet])
    have sets' := (a.statusWrite_sets (.screenSet n)).trans sets
    have owners' := (a.statusWrite_owners (.screenSet n)).trans owners
    generalize a.statusWrite (.screenSet n) = q at run only kept sets' owners' unit
    have unitOwn : q.unit (.screenSet n) = { s.part.unit (.screenSet n) with stage := .running } := (unit _).trans own
    have own' : q.sets[n] = x := by
      rw [sets']
      exact Vector.set_same
    refine ⟨_, run, ?_, ?_⟩
    · dsimp only
      rw [own', sets']
    dsimp only
    rw [own']
    subst loading
    refine ⟨rfl, rfl, rfl, rfl, rfl, rfl, rfl, ?_, rfl, ?_, rfl, rfl, rfl, rfl, rfl, notUsed,
      fun a => ⟨fun need => ?_, fun need => ?_⟩, unitOwn, fun r other => (unit r).trans (others r other),
      State.part_congr only.eq_pick, kept.kept⟩
    · show min f.trim 256 = _
      split
      · omega
      · omega
    · rw [ScreenSet.loading_decreasing]
      exact decreasingPoints_iff _
    · rw [owners', takeAreas_get]
      exact if_pos ((needsArea_iff _ _ _).mpr need)
    · rw [owners', takeAreas_get]
      exact if_neg fun h => need ((needsArea_iff _ _ _).mp h)

end Sys2Proof.Machine
end

section
/-! SUPPORT. The completion of a screen set LOAD (R92, R93). -/

namespace Sys2Proof.Machine

theorem leNat_pair (a b : Byte) : leNat [a, b] = a.toNat + 256 * b.toNat := by simp [leNat]

/-- A stored threshold fits twelve bits. -/
theorem clampThreshold_lt (v : Nat) : clampThreshold v < 4096 := by
  unfold clampThreshold
  split
  · omega
  · split
    · omega
    · omega

theorem clampThreshold_ne (v : Nat) : (clampThreshold v != v) = decide (v = 0 ∨ 4095 < v) := by
  rw [Bool.eq_iff_iff, bne_iff_ne, decide_eq_true_iff]
  unfold clampThreshold
  split
  · omega
  · split
    · omega
    · omega

section
variable (mem : Memory) (source n : Nat)

/-- A value of the tile as it stands in memory (R92). -/
def tileValue (e : Nat) : Nat := (mem.read (source + 2 * e)).toNat + 256 * (mem.read (source + 2 * e + 1)).toNat

theorem tileValues_eq : tileValues mem [] source n = (List.range n).map (tileValue mem source) :=
  List.map_congr_left fun _ _ => leNat_pair _ _

theorem tileValues_length : (tileValues mem [] source n).length = n := by
  rw [tileValues, List.length_map, List.length_range]

theorem tileValues_clamps :
    (tileValues mem [] source n).countP (fun v => clampThreshold v != v)
      = (List.range n).countP fun e => decide (tileValue mem source e = 0 ∨ 4095 < tileValue mem source e) := by
  rw [tileValues_eq, List.countP_map]
  exact List.countP_congr fun e _ => by rw [Function.comp_apply, clampThreshold_ne]

end

theorem storeTile_inside (t : TileMemory) (x : ScreenSet) (values : List Nat) (wf : TileMemory.wf t) {e : Nat}
    (inside : e < values.length) :
    ((storeTile t x values).read (4096 * x.start + e)).toNat = clampThreshold values[e] := by
  unfold storeTile
  rw [show Config.areaEntries * x.start = 4096 * x.start from rfl,
    TileMemory.read_store_inside t _ e _ (by rwa [List.length_map]) wf, List.getElem_map, BitVec.toNat_ofNat]
  exact Nat.mod_eq_of_lt (clampThreshold_lt _)

theorem storeTile_outside (t : TileMemory) (x : ScreenSet) (values : List Nat) {e : Nat}
    (outside : e < 4096 * x.start ∨ 4096 * x.start + values.length ≤ e) :
    (storeTile t x values).read e = t.read e := by
  refine TileMemory.read_store_of_outside t _ e _ ?_
  rwa [List.length_map]

theorem State.completeLoad_loading {s : State} {n : Fin 8} (cells : List Host.Cell)
    (loading : s.part.sets[n].state = .loading) :
    s.completeLoad n cells = { s with
      part := s.part.completeLoad n
        (tileValues s.part.mem cells s.part.sets[n].source (s.part.sets[n].w * s.part.sets[n].h))
      tiles := storeTile s.tiles s.part.sets[n]
        (tileValues s.part.mem cells s.part.sets[n].source (s.part.sets[n].w * s.part.sets[n].h)) } := if_pos loading

theorem Part.completeLoad_up {p : Part} {n : Fin 8} {values : List Nat} (up : p.sweep = .none) :
    p.completeLoad n values
      = ((p.ownRead.setSet n (p.sets[n].loaded values)).statusWrite (.screenSet n)).finishLoad n := by
  refine if_neg fun h => ?_
  have started : ((p.ownRead.setSet n (p.sets[n].loaded values)).statusWrite (.screenSet n)).restarting = false := by
    rw [Part.restarting, Part.statusWrite_sweep]
    show (match p.sweep with | .restart _ => true | _ => false) = false
    rw [up]
  rw [started] at h
  exact Bool.false_ne_true h

theorem State.partTiles_congr {s : State} {p q : Part} {tiles : TileMemory} (h : p = q) :
    ({ s with part := p, tiles := tiles } : State) = { s with part := q, tiles := tiles } := by rw [h]

/-- Settles O47. -/
theorem loadCompletes : Obligations.LoadCompletes := by
  intro s n up loading started wf x value
  have run : exec (.loadComplete n []) s = .next (s.completeLoad n []) := by rw [exec_loadComplete, whenUp_up up]
  have length := tileValues_length s.part.mem x.source (x.w * x.h)
  have values := tileValues_eq s.part.mem x.source (x.w * x.h)
  have clamps := tileValues_clamps s.part.mem x.source (x.w * x.h)
  rw [State.completeLoad_loading [] loading, Part.completeLoad_up started] at run
  change exec (.loadComplete n []) s = .next { s with
    part := ((s.part.ownRead.setSet n (x.loaded (tileValues s.part.mem [] x.source (x.w * x.h)))).statusWrite
      (.screenSet n)).finishLoad n
    tiles := storeTile s.tiles x (tileValues s.part.mem [] x.source (x.w * x.h)) } at run
  generalize tileValues s.part.mem [] x.source (x.w * x.h) = vs at run length values clamps
  have start : s.part.Only [.mem, .port, .sets] ((s.part.ownRead.setSet n (x.loaded vs)).statusWrite (.screenSet n)) :=
    (((Part.Only.refl _ _).ownRead).setSet).statusWrite
  have touches : s.part.Touches [resultRange (.screenSet n)]
      ((s.part.ownRead.setSet n (x.loaded vs)).statusWrite (.screenSet n)) :=
    (((Part.Touches.refl _ _).ownRead).setSet).statusWrite (by simp [statusRange_screenSet])
  have sets : ((s.part.ownRead.setSet n (x.loaded vs)).statusWrite (.screenSet n)).sets
      = s.part.sets.set n (x.loaded vs) :=
    Part.statusWrite_sets _ _
  generalize (s.part.ownRead.setSet n (x.loaded vs)).statusWrite (.screenSet n) = q at run start touches sets
  unfold Part.finishLoad at run
  obtain ⟨own, others, -⟩ := Part.finish_ended (r := .screenSet n) (c := .done) (d := q.sets[n].loadDetail)
    (start .units (by simp)) touches
  refine ⟨_, run, ?_, fun e inside => ?_, fun e outside => ?_, ?_, ?_, others, ?_, (touches.finish (by simp)).kept⟩
  · refine (Part.finish_sets _ _ _ _).trans (sets.trans (congrArg (s.part.sets.set n ·) ?_))
    rw [ScreenSet.loaded, clamps]
    rfl
  · have bound : e < vs.length := length.symm ▸ inside
    refine (storeTile_inside s.tiles x vs wf bound).trans ?_
    have stored : vs[e] = value e := by
      simp only [values, List.getElem_map, List.getElem_range]
      rfl
    rw [stored]
    rfl
  · exact storeTile_outside s.tiles x vs (by rwa [length])
  · exact congrArg CmdUnit.stage own
  · exact congrArg (fun u => u.result.code) own
  · have only := (start.mono (more := [.mem, .port, .sets, .units]) (by simp)).finish (r := .screenSet n) (c := .done)
      (d := q.sets[n].loadDetail)
    exact State.partTiles_congr only.eq_pick

end Sys2Proof.Machine
end

section
/-! SUPPORT. RESTART (R186): what it clears at once, and the status header it shows. -/

namespace Sys2Proof.Machine

/-! ## An act for each number -/

section
variable {σ : Type} {n : Nat} {act : σ → Fin n → σ} {Q P : Fin n → σ → Prop}

theorem foldl_each (before : ∀ a j k, j ≠ k → Q k a → Q k (act a j)) (made : ∀ a k, Q k a → P k (act a k))
    (after : ∀ a j k, j ≠ k → P k a → P k (act a j)) :
    ∀ (l : List (Fin n)) (a : σ), l.Nodup → (∀ k ∈ l, Q k a) →
      (∀ k ∈ l, P k (l.foldl act a)) ∧ ∀ k, k ∉ l → (P k a → P k (l.foldl act a)) := by
  intro l
  induction l with
  | nil => exact fun a _ _ => ⟨fun k hk => absurd hk List.not_mem_nil, fun _ _ h => h⟩
  | cons j l ih =>
    intro a distinct start
    obtain ⟨fresh, distinct'⟩ := List.nodup_cons.mp distinct
    have other (k : Fin n) (hk : k ∈ l) : j ≠ k := fun e => fresh (e ▸ hk)
    obtain ⟨inside, outside⟩ := ih (act a j) distinct' fun k hk =>
      before a j k (other k hk) (start k (List.mem_cons_of_mem j hk))
    refine ⟨fun k hk => ?_, fun k hk h => ?_⟩
    · rcases List.mem_cons.mp hk with rfl | hk
      · exact outside k fresh (made a k (start k List.mem_cons_self))
      · exact inside k hk
    · exact outside k (List.not_mem_of_not_mem_cons hk) (after a j k (List.ne_of_not_mem_cons hk).symm h)

/-- Where the acts of other numbers keep what holds of a number before and after its own act, all numbers have it. -/
theorem forEach_each (before : ∀ a j k, j ≠ k → Q k a → Q k (act a j)) (made : ∀ a k, Q k a → P k (act a k))
    (after : ∀ a j k, j ≠ k → P k a → P k (act a j)) (a : σ) (start : ∀ k, Q k a) (k : Fin n) :
    P k (forEach n act a) :=
  (foldl_each before made after (List.finRange n) a (List.nodup_finRange n) fun k _ => start k).1 k
    (List.mem_finRange k)

end

/-! ## The groups of the status header in memory -/

/-- The bytes of a status header group as they stand in memory. -/
def Part.groupShown (p : Part) (g : HeaderGroup) : List Byte :=
  p.mem.readBytes (p.base + (Config.offStatusHeader + g.offset)) (groupSize g)

theorem Part.headerWrite_shows (p : Part) (g : HeaderGroup) (wf : Memory.wf p.mem) :
    (p.headerWrite g).groupShown g = p.groupBytes g := by
  have written := p.own_written (.statusHeader p.reports.written) (Config.offStatusHeader + g.offset)
      (p.groupBytes g) wf
  rwa [p.groupBytes_length] at written

/-- Two groups stand apart. -/
theorem HeaderGroup.apart {g g' : HeaderGroup} (other : g ≠ g') :
    g.offset + groupSize g ≤ g'.offset ∨ g'.offset + groupSize g' ≤ g.offset := by
  cases g with
  | stream k =>
    cases g' with
    | stream j =>
      have ne : k.val ≠ j.val := fun e => other (congrArg _ (Fin.ext e))
      simp only [HeaderGroup.offset, groupSize]
      omega
    | _ => simp only [HeaderGroup.offset, groupSize]; omega
  | channel k =>
    cases g' with
    | channel j =>
      have ne : k.val ≠ j.val := fun e => other (congrArg _ (Fin.ext e))
      simp only [HeaderGroup.offset, groupSize]
      omega
    | _ => simp only [HeaderGroup.offset, groupSize]; omega
  | _ =>
    cases g' with
    | stream j => simp only [HeaderGroup.offset, groupSize]; omega
    | channel j => simp only [HeaderGroup.offset, groupSize]; omega
    | _ => simp [HeaderGroup.offset, groupSize] at other ⊢

theorem Part.headerWrite_shown_ne (p : Part) {g g' : HeaderGroup} (other : g ≠ g') :
    (p.headerWrite g).groupShown g' = p.groupShown g' := by
  refine p.own_readBytes _ _ _ _ _ ?_
  have := HeaderGroup.apart other
  have base : (p.headerWrite g).base = p.base := rfl
  rw [p.groupBytes_length, base]
  omega

/-! ## The parsers and the channels of a restart (R21, R24, R144, R145) -/

namespace Part

theorem restartParsers_only (p : Part) : p.Only [.mem, .port, .parsers] p.restartParsers :=
  (Only.refl _ p).forEach _ fun a _ => (Only.refl _ a).changeParser

theorem restartParsers_touches (p : Part) : p.Touches [headerRange] p.restartParsers :=
  (Touches.refl _ p).forEach _ fun a _ => (Touches.refl _ a).changeParser (by simp)

theorem changeParser_get_ne (p : Part) {j k : Fin 4} (other : j ≠ k) (f : Parser → Parser) :
    (p.changeParser j f).parsers[k] = p.parsers[k] := by
  rw [changeParser_parsers]
  exact Vector.set_other other.symm

theorem changeParser_get (p : Part) (k : Fin 4) (f : Parser → Parser) :
    (p.changeParser k f).parsers[k] = f p.parsers[k] := by
  rw [changeParser_parsers]
  exact Vector.set_same

theorem changeParser_wf (p : Part) (k : Fin 4) (f : Parser → Parser) (wf : Memory.wf p.mem) :
    Memory.wf (p.changeParser k f).mem := ((Touches.refl [headerRange] p).changeParser (by simp)).wf wf

theorem changeParser_shows (p : Part) (k : Fin 4) (f : Parser → Parser) (wf : Memory.wf p.mem) :
    (p.changeParser k f).groupShown (.stream k) = (p.changeParser k f).parsers[k].bytes := by
  have shows' := (p.setParser k (f p.parsers[k])).headerWrite_shows (.stream k) wf
  unfold Part.changeParser
  rw [shows', Part.headerWrite_parsers]
  rfl

theorem changeParser_shown_ne (p : Part) {j : Fin 4} {g : HeaderGroup} (other : .stream j ≠ g) (f : Parser → Parser) :
    (p.changeParser j f).groupShown g = p.groupShown g :=
  (p.setParser j (f p.parsers[j])).headerWrite_shown_ne other

theorem restartParsers_get (p : Part) (k : Fin 4) : p.restartParsers.parsers[k] = p.parsers[k].restarted := by
  unfold Part.restartParsers
  refine forEach_each (Q := fun k a => a.parsers[k] = p.parsers[k])
    (P := fun k a => a.parsers[k] = p.parsers[k].restarted) (fun a j k other h => ?_) (fun a k h => ?_)
    (fun a j k other h => ?_) p (fun _ => rfl) k
  · rw [a.changeParser_get_ne other, h]
  · rw [a.changeParser_get k, h]
  · rw [a.changeParser_get_ne other, h]

theorem restartParsers_shows (p : Part) (wf : Memory.wf p.mem) (k : Fin 4) :
    p.restartParsers.groupShown (.stream k) = p.restartParsers.parsers[k].bytes := by
  refine (forEach_each (Q := fun _ a => Memory.wf a.mem)
    (P := fun k a => a.groupShown (.stream k) = a.parsers[k].bytes ∧ Memory.wf a.mem)
    (fun a j k _ h => a.changeParser_wf j _ h)
    (fun a k h => ⟨a.changeParser_shows k _ h, a.changeParser_wf k _ h⟩)
    (fun a j k other ⟨shown, h⟩ => ⟨?_, a.changeParser_wf j _ h⟩) p (fun _ => wf) k).1
  rw [a.changeParser_shown_ne (fun e => other (HeaderGroup.stream.inj e)), shown, a.changeParser_get_ne other]

theorem restartChannels_only (p : Part) : p.Only [.mem, .port, .channels] p.restartChannels :=
  (Only.refl _ p).forEach _ fun a _ => (Only.refl _ a).changeChannel

theorem restartChannels_touches (p : Part) : p.Touches [headerRange] p.restartChannels :=
  (Touches.refl _ p).forEach _ fun a _ => (Touches.refl _ a).changeChannel (by simp)

theorem changeChannel_channels (p : Part) (k : Fin 2) (f : Channel → Channel) :
    (p.changeChannel k f).channels = p.channels.set k (f p.channels[k]) := by
  unfold Part.changeChannel
  dsimp only
  split
  · exact Part.headerWrite_channels _ _
  · rfl

theorem changeChannel_get_ne (p : Part) {j k : Fin 2} (other : j ≠ k) (f : Channel → Channel) :
    (p.changeChannel j f).channels[k] = p.channels[k] := by
  rw [changeChannel_channels]
  exact Vector.set_other other.symm

theorem changeChannel_get (p : Part) (k : Fin 2) (f : Channel → Channel) :
    (p.changeChannel k f).channels[k] = f p.channels[k] := by
  rw [changeChannel_channels]
  exact Vector.set_same

theorem changeChannel_wf (p : Part) (k : Fin 2) (f : Channel → Channel) (wf : Memory.wf p.mem) :
    Memory.wf (p.changeChannel k f).mem := ((Touches.refl [headerRange] p).changeChannel (by simp)).wf wf

theorem changeChannel_shown_ne (p : Part) {j : Fin 2} {g : HeaderGroup} (other : .channel j ≠ g)
    (f : Channel → Channel) : (p.changeChannel j f).groupShown g = p.groupShown g := by
  unfold Part.changeChannel
  dsimp only
  split
  · exact (p.setChannel j (f p.channels[j])).headerWrite_shown_ne other
  · rfl

theorem changeChannel_shows (p : Part) (k : Fin 2) (f : Channel → Channel) (wf : Memory.wf p.mem)
    (changes : (f p.channels[k]).state ≠ p.channels[k].state) :
    (p.changeChannel k f).groupShown (.channel k) = (p.changeChannel k f).channels[k].bytes := by
  unfold Part.changeChannel
  dsimp only
  have shows' := (p.setChannel k (f p.channels[k])).headerWrite_shows (.channel k) wf
  rw [if_pos (.inl changes), shows', Part.headerWrite_channels]
  rfl

theorem restartChannels_get (p : Part) (k : Fin 2) : p.restartChannels.channels[k] = {} :=
  forEach_each (Q := fun _ _ => True) (P := fun k a => a.channels[k] = {}) (fun _ _ _ _ _ => trivial)
    (fun a k _ => a.changeChannel_get k _)
    (fun a j k other h => (a.changeChannel_get_ne other _).trans h) p (fun _ => trivial) k

theorem restartChannels_shows (p : Part) (wf : Memory.wf p.mem) (k : Fin 2) (busy : p.channels[k].state ≠ .idle) :
    p.restartChannels.groupShown (.channel k) = ({} : Channel).bytes := by
  refine (forEach_each
    (Q := fun k a => Memory.wf a.mem ∧ a.channels[k] = p.channels[k])
    (P := fun k a => Memory.wf a.mem ∧ (p.channels[k].state ≠ .idle → a.groupShown (.channel k) = ({} : Channel).bytes))
    (fun a j k other h => ⟨a.changeChannel_wf j _ h.1, (a.changeChannel_get_ne other _).trans h.2⟩)
    (fun a k h => ⟨a.changeChannel_wf k _ h.1, fun busy => ?_⟩)
    (fun a j k other h => ⟨a.changeChannel_wf j _ h.1, fun busy => ?_⟩) p (fun _ => ⟨wf, rfl⟩) k).2 busy
  · rw [a.changeChannel_shows k _ h.1 (by rw [h.2]; exact busy.symm), a.changeChannel_get]
    rfl
  · rw [a.changeChannel_shown_ne (fun e => other (HeaderGroup.channel.inj e)), h.2 busy]

theorem restartChannels_shown_stream (p : Part) (k : Fin 4) :
    p.restartChannels.groupShown (.stream k) = p.groupShown (.stream k) :=
  forEach_same (fun a => a.groupShown (.stream k)) _
    (fun a _ => a.changeChannel_shown_ne HeaderGroup.noConfusion _) p

theorem accepted_only (p : Part) :
    p.Only [.sweep, .port, .reports, .units, .transit, .slots, .orphans, .plates, .sets]
      (p.setStage .header .running).clearForRestart := by
  intro x hx
  cases x
  case cabase => rfl
  case tkdiv => rfl
  case tick => rfl
  case mem => rfl
  case freeReads => rfl
  case params => rfl
  case windows => rfl
  case filters => rfl
  case parsers => rfl
  case channels => rfl
  case owners => rfl
  all_goals exact absurd (by simp) hx

theorem clearForRestart_unit (p : Part) (r : RecordId) : p.clearForRestart.unit r = (p.unit r).barTaken :=
  Vector.getElem_map _ _

end Part

theorem Channel.refusesRestart_iff (c : Channel) :
    c.refusesRestart = true ↔ c.state = .exposing ∨ c.inHand ≠ none := by
  rw [Channel.refusesRestart, Bool.or_eq_true, beq_iff_eq, Option.isSome_iff_ne_none]

theorem restartDetail_bit (a b : Bool) :
    ((BitVec.ofNat 32 (restartDetail a b)).getLsbD 0 = true ↔ a = true)
      ∧ ((BitVec.ofNat 32 (restartDetail a b)).getLsbD 1 = true ↔ b = true) := by
  revert a b
  decide

theorem Parser.restarted_payload {x : Parser} (payload : x.state = .payload) :
    x.restarted = { state := .hunt, expected := x.expected } := by
  unfold Parser.restarted
  rw [payload]

theorem Parser.restarted_away {x : Parser} (away : x.state ≠ .payload) :
    x.restarted = { x with sequence := none, filed := 0, rejected := 0, strays := 0, resyncs := 0, late := 0 } := by
  unfold Parser.restarted
  split
  · exact absurd (by assumption) away
  · rfl

/-- Settles O45. -/
theorem restart : Obligations.Restart := by
  refine ⟨fun s runs => ?refused, fun s runs free => ?accepted⟩
  case refused =>
    intro busy refuses
    have run : exec .restart s = .next { s with part := s.part.restart } := by rw [exec_restart, onPart_runs runs]
    have channel (k : Fin 2) : s.part.channels[k].refusesRestart = true ↔ busy k := Channel.refusesRestart_iff _
    have refused : s.part.restart = s.part.finish .header .inUse
        (restartDetail s.part.channels[(0 : Fin 2)].refusesRestart s.part.channels[(1 : Fin 2)].refusesRestart) := by
      refine if_pos (Bool.or_eq_true_iff.mpr ?_)
      exact refuses.imp (channel 0).mpr (channel 1).mpr
    rw [refused] at run
    obtain ⟨bit0, bit1⟩ := restartDetail_bit s.part.channels[(0 : Fin 2)].refusesRestart
      s.part.channels[(1 : Fin 2)].refusesRestart
    exact ⟨_, _, run, Part.finish_ended rfl (Part.Touches.refl [] _), bit0.trans (channel 0), bit1.trans (channel 1),
      State.part_congr ((Part.Only.refl [.mem, .port, .units] _).finish).eq_pick,
      ((Part.Touches.refl _ _).finish_header (by simp)).kept⟩
  case accepted =>
    have run : exec .restart s = .next { s with part := s.part.restart } := by rw [exec_restart, onPart_runs runs]
    have idle (k : Fin 2) : ¬ s.part.channels[k].refusesRestart = true := fun h => by
      rcases (Channel.refusesRestart_iff _).mp h with exposing | held
      · exact (free k).1 exposing
      · exact held (free k).2
    have accepted : s.part.restart
        = (s.part.setStage .header .running).clearForRestart.restartParsers.restartChannels := by
      refine if_neg fun h => ?_
      rcases Bool.or_eq_true_iff.mp h with first | second
      · exact idle 0 first
      · exact idle 1 second
    rw [accepted] at run
    have cleared := s.part.accepted_only
    have touches : s.part.Touches [headerRange] (s.part.setStage .header .running).clearForRestart :=
      (Part.Touches.refl _ _).tables _
    have unit := (s.part.setStage .header .running).clearForRestart_unit
    have fields : (s.part.setStage .header .running).clearForRestart.sweep = .restart 0 
      ∧ (s.part.setStage .header .running).clearForRestart.transit = []
      ∧ (s.part.setStage .header .running).clearForRestart.orphans = []
      ∧ (s.part.setStage .header .running).clearForRestart.reports = {}
      ∧ (s.part.setStage .header .running).clearForRestart.slots = Vector.replicate 512 {}
      ∧ (s.part.setStage .header .running).clearForRestart.plates = Vector.replicate 64 {}
      ∧ (s.part.setStage .header .running).clearForRestart.sets = s.part.sets.map fun x => { x with use := 0 } :=
      ⟨rfl, rfl, rfl, rfl, rfl, rfl, rfl⟩
    generalize (s.part.setStage .header .running).clearForRestart = c at run cleared touches unit fields
    obtain ⟨sweep, transit, orphans, reports, slots, plates, sets⟩ := fields
    have parsersOnly := c.restartParsers_only
    have parsersTouch := c.restartParsers_touches
    have parsers (k : Fin 4) : c.restartParsers.parsers[k] = s.part.parsers[k].restarted := by
      rw [c.restartParsers_get, cleared .parsers (by simp)]
    have streams := c.restartParsers_shows
    generalize c.restartParsers = b at run parsersOnly parsersTouch parsers streams
    have channelsOnly := b.restartChannels_only
    have channelsTouch := b.restartChannels_touches
    have channels := b.restartChannels_get
    have shownChannels := b.restartChannels_shows
    have shownStreams := b.restartChannels_shown_stream
    generalize b.restartChannels = q at run channelsOnly channelsTouch channels shownChannels shownStreams
    have later : c.Only [.mem, .port, .parsers, .channels] q := (parsersOnly.mono (by simp)).trans
        (channelsOnly.mono (by simp))
    have kept := (touches.trans parsersTouch).trans channelsTouch
    have wf (h : Memory.wf s.part.mem) : Memory.wf b.mem := (touches.trans parsersTouch).wf h
    have base : q.base = s.part.base := Part.base_congr kept.cabase
    have parser (k : Fin 4) : q.parsers[k] = s.part.parsers[k].restarted := by
      rw [channelsOnly .parsers (by simp), parsers]
    have units (r : RecordId) : q.unit r = ((s.part.setStage .header .running).unit r).barTaken :=
      (Part.unit_congr (later .units (by simp)) r).trans (unit r)
    have all : s.part.Only [.sweep, .transit, .orphans, .reports, .slots, .plates, .channels, .sets, .parsers, .units,
        .mem, .port] q := (cleared.mono (by simp)).trans (later.mono (by simp))
    refine ⟨_, run, (later .sweep (by simp)).trans sweep, (later .transit (by simp)).trans transit,
      (later .orphans (by simp)).trans orphans, (later .reports (by simp)).trans reports, fun n => ?_, fun n => ?_,
      channels, fun n => ?_, fun k payload => ?_, fun k away => ?_, fun k => ?_, ?_, fun r other => ?_,
      State.part_congr all.eq_pick, fun h k => ?_, fun h k busy => ?_, kept.kept⟩
    · have same : q.slots = Vector.replicate 512 {} := (later .slots (by simp)).trans slots
      dsimp only
      rw [same]
      exact Vector.getElem_replicate _
    · have same : q.plates = Vector.replicate 64 {} := (later .plates (by simp)).trans plates
      dsimp only
      rw [same]
      exact Vector.getElem_replicate _
    · have same := (later .sets (by simp)).trans sets
      dsimp only
      rw [same]
      exact Vector.getElem_map _ _
    · dsimp only
      rw [parser, Parser.restarted_payload payload]
    · dsimp only
      rw [parser, Parser.restarted_away away]
    · dsimp only
      rw [parser]
      by_cases payload : s.part.parsers[k].state = .payload
      · rw [Parser.restarted_payload payload]
        exact ⟨rfl, rfl, rfl, rfl, rfl, rfl, rfl⟩
      · rw [Parser.restarted_away payload]
        exact ⟨rfl, rfl, rfl, rfl, rfl, rfl, rfl⟩
    · dsimp only
      rw [units, Part.setStage_unit]
      exact if_neg CmdStage.noConfusion
    · dsimp only
      rw [units, Part.setStage_unit_ne _ _ _ _ other]
      rfl
    · have shown := (shownStreams k).trans ((streams ((touches.wf) h) k).trans (congrArg Parser.bytes
        ((parsers k).trans (parser k).symm)))
      rw [Part.groupShown, base, HeaderGroup.offset, groupSize] at shown
      rw [show s.part.base + 0x140 + 40 * k.val = s.part.base + (Config.offStatusHeader + (64 + 40 * k.val)) by
        rw [Config.offStatusHeader]; omega]
      exact shown
    · have wasBusy : b.channels[k].state ≠ .idle := by
        rw [show b.channels = s.part.channels from (parsersOnly .channels (by simp)).trans
            (cleared .channels (by simp))]
        exact busy
      have shown := shownChannels (wf h) k wasBusy
      rw [Part.groupShown, base, HeaderGroup.offset, groupSize] at shown
      rw [show s.part.base + 0x1E0 + 16 * k.val = s.part.base + (Config.offStatusHeader + (224 + 16 * k.val)) by
        rw [Config.offStatusHeader]; omega]
      exact shown

end Sys2Proof.Machine
end

section
/-! SUPPORT. A span list that the validator finds GOOD, code by code, and the decoder on it (R50 to R53, R59). -/

namespace Sys2Proof.Machine

/-! ## What a GOOD span list holds -/

/-- The bytes left end the span list well. -/
def SpanValidator.accepts (v : SpanValidator) (bs : List Byte) : Prop := ((v.feedAll bs).finish).verdict = .good

theorem SpanValidator.feedAll_bad : ∀ (bs : List Byte) (v : SpanValidator) (o : Nat), v.bad = some o →
    (v.feedAll bs).bad = some o
  | [], _, _, h => h
  | b :: bs, v, o, h => by
    refine SpanValidator.feedAll_bad bs (v.feed b) o ?_
    unfold SpanValidator.feed
    rw [h]
    exact h

/-- Once a violation is recorded the list is not GOOD (R53). -/
theorem SpanValidator.not_accepts_bad {v : SpanValidator} {o : Nat} (bad : v.bad = some o) (bs : List Byte) :
    ¬ v.accepts bs := by
  intro h
  have kept := SpanValidator.feedAll_bad bs v o bad
  unfold SpanValidator.accepts SpanValidator.finish at h
  rw [kept] at h
  unfold SpanValidator.verdict at h
  rw [kept] at h
  exact nomatch h

section
variable {width lineCount : Nat}

/-- A validator that has found no violation. -/
def sound (width lineCount offset lines : Nat) (anyCode : Bool) (code : CodeInProgress) : SpanValidator :=
  { width := width, lineCount := lineCount, offset := offset, lines := lines, code := code, anyCode := anyCode }

variable {o lines : Nat} {any : Bool} {code : CodeInProgress} {bs rest : List Byte} {c : Byte}

theorem not_accepts_nil (short : code ≠ .none ∨ lines < lineCount) :
    ¬ (sound width lineCount o lines any code).accepts [] := by
  intro h
  have ends : (sound width lineCount o lines any code).finish
      = { sound width lineCount o lines any code with bad := some o } := if_pos short
  rw [SpanValidator.accepts, SpanValidator.feedAll, List.foldl_nil, ends] at h
  exact nomatch h

/-- A code byte (R50, R52). -/
theorem accepts_code (less : lines < lineCount) (h : (sound width lineCount o lines any .none).accepts (c :: rest)) :
    (c.toNat = 0 ∧ (sound width lineCount (o + 1) (lines + 1) true .none).accepts rest)
      ∨ (c.toNat = 1 ∧ any = true ∧ (sound width lineCount (o + 1) (lines + 1) any .none).accepts rest)
      ∨ (c.toNat = 2 ∧ (sound width lineCount (o + 1) lines true (.count [])).accepts rest)
      ∨ (c.toNat = 3 ∧ (sound width lineCount (o + 1) lines true (.runBlank o)).accepts rest) := by
  have feeds : (sound width lineCount o lines any .none).accepts (c :: rest)
      = ({ (sound width lineCount o lines any .none).codeByte c with
          offset := o + 1 } : SpanValidator).accepts rest := rfl
  have code : (sound width lineCount o lines any .none).codeByte c = _ := if_neg (not_le.mpr less)
  rw [feeds, code] at h
  split at h
  · rename_i zero
    exact .inl ⟨zero, h⟩
  · rename_i one
    split at h
    · rename_i repeats
      exact .inr (.inl ⟨one, repeats, h⟩)
    · exact absurd h (SpanValidator.not_accepts_bad rfl _)
  · rename_i two
    exact .inr (.inr (.inl ⟨two, h⟩))
  · rename_i three
    exact .inr (.inr (.inr ⟨three, h⟩))
  · exact absurd h (SpanValidator.not_accepts_bad rfl _)

/-- The byte of a RUN_BLANK (R52). -/
theorem accepts_run {at_ : Nat} (h : (sound width lineCount o lines any (.runBlank at_)).accepts bs) :
    ∃ k rest, bs = k :: rest ∧ k ≠ 0 ∧ lines + k.toNat ≤ lineCount
      ∧ (sound width lineCount (o + 1) (lines + k.toNat) any .none).accepts rest := by
  cases bs with
  | nil => exact absurd h (not_accepts_nil (.inl CodeInProgress.noConfusion))
  | cons k rest =>
    have feeds : (sound width lineCount o lines any (.runBlank at_)).accepts (k :: rest)
        = ({ (sound width lineCount o lines any (.runBlank at_)).runByte at_ k with offset := o + 1 }
            : SpanValidator).accepts rest := rfl
    rw [feeds] at h
    unfold SpanValidator.runByte at h
    split at h
    · exact absurd h (SpanValidator.not_accepts_bad rfl _)
    · rename_i good
      obtain ⟨positive, fits⟩ := not_or.mp good
      exact ⟨k, rest, rfl, positive, not_lt.mp fits, h⟩

/-- The count of a SPANS code (R52). -/
theorem accepts_count (h : (sound width lineCount o lines any (.count [])).accepts bs) :
    ∃ a b rest, bs = a :: b :: rest ∧ beNat [a, b] ≠ 0 ∧ beNat [a, b] ≤ 2048
      ∧ (sound width lineCount (o + 2) lines any (.pairs (beNat [a, b]) true 0 [])).accepts rest := by
  match bs with
  | [] => exact absurd h (not_accepts_nil (.inl CodeInProgress.noConfusion))
  | [a] =>
    have feeds : (sound width lineCount o lines any (.count [])).accepts [a]
        = (sound width lineCount (o + 1) lines any (.count [a])).accepts [] := rfl
    rw [feeds] at h
    exact absurd h (not_accepts_nil (.inl CodeInProgress.noConfusion))
  | a :: b :: rest =>
    have feeds : (sound width lineCount o lines any (.count [])).accepts (a :: b :: rest)
        = ({ (sound width lineCount (o + 1) lines any (.count [a])).countByte [a] b with offset := o + 1 + 1 }
            : SpanValidator).accepts rest := rfl
    rw [feeds] at h
    unfold SpanValidator.countByte at h
    dsimp only at h
    split at h
    · exact absurd h (SpanValidator.not_accepts_bad rfl _)
    · rename_i good
      obtain ⟨positive, fits⟩ := not_or.mp good
      exact ⟨a, b, rest, rfl, positive, not_lt.mp fits, h⟩

/-- A pair of a SPANS code (R52). -/
theorem accepts_pair {left lastEnd : Nat} {first : Bool}
    (h : (sound width lineCount o lines any (.pairs left first lastEnd [])).accepts bs) :
    4 ≤ bs.length ∧ ∃ e, pairEnd width first lastEnd (beField bs 0 2) (beField bs 2 2) = some e
      ∧ (if left ≤ 1 then sound width lineCount (o + 4) (lines + 1) any .none
          else sound width lineCount (o + 4) lines any (.pairs (left - 1) false e [])).accepts (bs.drop 4) := by
  match bs with
  | [] => exact absurd h (not_accepts_nil (.inl CodeInProgress.noConfusion))
  | [a] =>
    have fed : (sound width lineCount (o + 1) lines any (.pairs left first lastEnd [a])).accepts [] := h
    exact absurd fed (not_accepts_nil (.inl CodeInProgress.noConfusion))
  | [a, b] =>
    have fed : (sound width lineCount (o + 2) lines any (.pairs left first lastEnd [a, b])).accepts [] := h
    exact absurd fed (not_accepts_nil (.inl CodeInProgress.noConfusion))
  | [a, b, c] =>
    have fed : (sound width lineCount (o + 3) lines any (.pairs left first lastEnd [a, b, c])).accepts [] := h
    exact absurd fed (not_accepts_nil (.inl CodeInProgress.noConfusion))
  | a :: b :: c :: d :: rest =>
    have feeds : (sound width lineCount o lines any (.pairs left first lastEnd [])).accepts (a :: b :: c :: d :: rest)
        = ({ (sound width lineCount (o + 3) lines any (.pairs left first lastEnd [a, b, c])).pairByte left first lastEnd
              [a, b, c] d with offset := o + 3 + 1 } : SpanValidator).accepts rest := rfl
    rw [feeds] at h
    unfold SpanValidator.pairByte at h
    rw [if_neg (by simp)] at h
    dsimp only at h
    have low : beField [a, b, c, d] 0 2 = beField (a :: b :: c :: d :: rest) 0 2 := by simp [beField, fieldBytes]
    have high : beField [a, b, c, d] 2 2 = beField (a :: b :: c :: d :: rest) 2 2 := by simp [beField, fieldBytes]
    refine ⟨by simp, ?_⟩
    rw [show [a, b, c] ++ [d] = [a, b, c, d] from rfl, low, high] at h
    split at h
    · exact absurd h (SpanValidator.not_accepts_bad rfl _)
    · rename_i e found
      refine ⟨e, found, ?_⟩
      split at h
      · rename_i last
        rw [if_pos last]
        exact h
      · rename_i more
        rw [if_neg more]
        exact h

/-! ## The spans of a code -/

/-- The spans of a line lie within the width, in order, with a gap between them (R51, R52). -/
def spansOk (width : Nat) (spans : List (Nat × Nat)) : Prop :=
  (∀ x ∈ spans, x.1 < x.2 ∧ x.2 ≤ width) ∧ spans.Pairwise fun x y => x.2 < y.1

theorem pairEnd_some {lastEnd gap len e : Nat} {first : Bool} (h : pairEnd width first lastEnd gap len = some e) :
    e = lastEnd + gap + len ∧ len ≠ 0 ∧ (first = false → gap ≠ 0) ∧ e ≤ width := by
  unfold pairEnd at h
  split at h
  · exact nomatch h
  · split at h
    · exact nomatch h
    · split at h
      · exact nomatch h
      · rename_i positive gapped fits
        have e' : lastEnd + gap + len = e := Option.some.inj h
        refine ⟨e'.symm, positive, fun notFirst zero => gapped ?_, by omega⟩
        rw [notFirst, zero]
        rfl

/-- The pairs that the validator accepts are the spans that the decoder reads. -/
theorem readPairs_accepted (len : Nat) : ∀ (left : Nat) (first : Bool) (lastEnd at_ o : Nat) (bs : List Byte),
    1 ≤ left →
    (sound width lineCount o lines any (.pairs left first lastEnd [])).accepts bs →
    ∃ spans o', readPairs width len left first lastEnd at_ bs = .ok spans ∧ 4 * left ≤ bs.length
      ∧ (sound width lineCount o' (lines + 1) any .none).accepts (bs.drop (4 * left))
      ∧ spansOk width spans ∧ (∀ x ∈ spans, lastEnd ≤ x.1 ∧ (first = false → lastEnd < x.1)) := by
  intro left
  induction left with
  | zero => exact fun _ _ _ _ _ positive => absurd positive (by omega)
  | succ left ih =>
    intro first lastEnd at_ o bs _ h
    obtain ⟨enough, e, pair, rest⟩ := accepts_pair h
    obtain ⟨ends, positive, gapped, fits⟩ := pairEnd_some pair
    have reads : readPairs width len (left + 1) first lastEnd at_ bs
        = (readPairs width len left false e (at_ + 4) (bs.drop 4)).map ((e - beField bs 2 2, e) :: ·) := by
      rw [readPairs, if_neg (by omega), pair]
    have span : lastEnd ≤ e - beField bs 2 2 ∧ (first = false → lastEnd < e - beField bs 2 2) := by
      refine ⟨by omega, fun notFirst => ?_⟩
      have := gapped notFirst
      omega
    cases left with
    | zero =>
      rw [if_pos (by omega)] at rest
      refine ⟨[(e - beField bs 2 2, e)], o + 4, by rw [reads]; rfl, by omega, rest,
        ⟨?_, List.pairwise_singleton _ _⟩, ?_⟩
      · rintro x hx
        rw [List.mem_singleton.mp hx]
        exact ⟨by dsimp only; omega, fits⟩
      · rintro x hx
        rw [List.mem_singleton.mp hx]
        exact span
    | succ left =>
      rw [if_neg (by omega)] at rest
      obtain ⟨spans, o', tail, long, after, ⟨within, ordered⟩, beyond⟩ := ih false e (at_ + 4) (o + 4) (bs.drop 4)
          (by omega) rest
      rw [List.length_drop] at long
      rw [List.drop_drop] at after
      refine ⟨(e - beField bs 2 2, e) :: spans, o', by rw [reads, tail]; rfl, by omega, ?_, ⟨?_, ?_⟩, ?_⟩
      · rwa [show 4 * (left + 1 + 1) = 4 + 4 * (left + 1) by omega]
      · intro x hx
        rcases List.mem_cons.mp hx with rfl | hx
        · exact ⟨by dsimp only; omega, fits⟩
        · exact within x hx
      · exact List.pairwise_cons.mpr ⟨fun y hy => (beyond y hy).2 rfl, ordered⟩
      · intro x hx
        rcases List.mem_cons.mp hx with rfl | hx
        · exact span
        · have := (beyond x hx).1
          refine ⟨by omega, fun notFirst => ?_⟩
          have := span.2 notFirst
          omega

/-! ## The decoder on a GOOD span list -/

/-- The decoder stands between two codes of a GOOD span list, its lines so far produced. -/
structure OpenBand.Decodes (b : OpenBand) (width lineCount : Nat) (payload : List Byte) : Prop where
  whole : b.broken = false
  ahead : ∃ o, (sound width lineCount o (b.produced + b.runLeft) b.line.isSome .none).accepts (payload.drop b.next)
  run : 0 < b.runLeft → b.line.isSome = true
  spans : spansOk width b.spans

theorem spansOk_nil : spansOk width [] := ⟨fun _ h => absurd h List.not_mem_nil, List.Pairwise.nil⟩

/-- What stands after the code byte and some bytes more. -/
theorem drop_after {payload rest : List Byte} {next : Nat} {c : Byte} (code : payload.drop next = c :: rest) (k : Nat) :
    payload.drop (next + 1 + k) = rest.drop k := by
  rw [Nat.add_assoc, ← List.drop_drop, code, Nat.add_comm 1 k, List.drop_succ_cons]

/-- A code read where no violation stands (R50, R52, R59). -/
theorem OpenBand.readCode_decodes {b : OpenBand} {payload rest : List Byte} {c : Byte} {o : Nat}
    (whole : b.broken = false) (idle : b.runLeft = 0) (spans : spansOk width b.spans)
    (code : payload.drop b.next = c :: rest) (less : b.produced < lineCount)
    (ahead : (sound width lineCount o b.produced b.line.isSome .none).accepts (c :: rest)) :
    (b.readCode width lineCount payload.length c rest).Decodes width lineCount payload
      ∧ (b.readCode width lineCount payload.length c rest).line = some b.produced := by
  have after (k : Nat) := drop_after code k
  rcases accepts_code less ahead with ⟨zero, h⟩ | ⟨one, repeats, h⟩ | ⟨two, h⟩ | ⟨three, h⟩
  · have reads : b.readCode width lineCount payload.length c rest
        = { b with line := some b.produced, spans := [], next := b.next + 1 } := by
      unfold OpenBand.readCode
      simp only [zero]
    rw [reads]
    refine ⟨⟨whole, ⟨o + 1, ?_⟩, fun _ => rfl, spansOk_nil⟩, rfl⟩
    show (sound width lineCount (o + 1) (b.produced + 1 + b.runLeft) true .none).accepts (payload.drop (b.next + 1))
    rw [idle, show payload.drop (b.next + 1) = rest from after 0]
    exact h
  · have reads : b.readCode width lineCount payload.length c rest
        = { b with line := some b.produced, next := b.next + 1 } := by
      unfold OpenBand.readCode
      rw [one]
      exact if_pos repeats
    rw [reads]
    refine ⟨⟨whole, ⟨o + 1, ?_⟩, fun _ => rfl, spans⟩, rfl⟩
    show (sound width lineCount (o + 1) (b.produced + 1 + b.runLeft) true .none).accepts (payload.drop (b.next + 1))
    rw [idle, show payload.drop (b.next + 1) = rest from after 0, ← repeats]
    exact h
  · obtain ⟨x, y, rest', bytes, positive, small, pairs⟩ := accepts_count h
    subst bytes
    have count : beField (x :: y :: rest') 0 2 = beNat [x, y] := by simp [beField, fieldBytes]
    obtain ⟨line, o', spansRead, -, ends, ok, -⟩ :=
      readPairs_accepted payload.length (beNat [x, y]) true 0 (b.next + 3) _ rest' (by omega) pairs
    have long : ¬ (x :: y :: rest').length < 2 := by simp
    have reads : b.readCode width lineCount payload.length c (x :: y :: rest')
        = { b with line := some b.produced, spans := line, next := b.next + 3 + 4 * beNat [x, y] } := by
      unfold OpenBand.readCode
      rw [two, count]
      refine (if_neg long).trans ((if_neg (by omega)).trans ?_)
      rw [show (x :: y :: rest').drop 2 = rest' from rfl, spansRead]
    rw [reads]
    refine ⟨⟨whole, ⟨o', ?_⟩, fun _ => rfl, ok⟩, rfl⟩
    show (sound width lineCount o' (b.produced + 1 + b.runLeft) true .none).accepts
      (payload.drop (b.next + 3 + 4 * beNat [x, y]))
    have tail := after (2 + 4 * beNat [x, y])
    rw [show b.next + 1 + (2 + 4 * beNat [x, y]) = b.next + 3 + 4 * beNat [x, y] by omega,
      show 2 + 4 * beNat [x, y] = 4 * beNat [x, y] + 1 + 1 by omega, List.drop_succ_cons, List.drop_succ_cons] at tail
    rw [idle, tail]
    exact ends
  · obtain ⟨k, rest', bytes, positive, fits, ends⟩ := accepts_run h
    subst bytes
    have count : beField (k :: rest') 0 1 = k.toNat := by simp [beField, fieldBytes, beNat]
    have positive' : k.toNat ≠ 0 := fun e => positive (BitVec.eq_of_toNat_eq e)
    have long : ¬ (k :: rest').length < 1 := by simp
    have reads : b.readCode width lineCount payload.length c (k :: rest')
        = { b with line := some b.produced, spans := [], runLeft := k.toNat - 1, next := b.next + 2 } := by
      unfold OpenBand.readCode
      rw [three, count]
      exact (if_neg long).trans (if_neg (by omega))
    rw [reads]
    refine ⟨⟨whole, ⟨o + 1 + 1, ?_⟩, fun _ => rfl, spansOk_nil⟩, rfl⟩
    show (sound width lineCount (o + 1 + 1) (b.produced + 1 + (k.toNat - 1)) true .none).accepts
      (payload.drop (b.next + 2))
    rw [show b.produced + 1 + (k.toNat - 1) = b.produced + k.toNat by omega,
      show payload.drop (b.next + 2) = rest' from after 1]
    exact ends

theorem OpenBand.nextLine_decodes {b : OpenBand} {payload : List Byte} (h : b.Decodes width lineCount payload)
    (less : b.produced < lineCount) :
    (b.nextLine width lineCount payload).Decodes width lineCount payload
      ∧ (b.nextLine width lineCount payload).line = some b.produced := by
  obtain ⟨whole, ⟨o, ahead⟩, run, spans⟩ := h
  unfold OpenBand.nextLine
  rw [if_neg (by rw [whole]; exact Bool.false_ne_true)]
  by_cases running : 0 < b.runLeft
  · rw [if_pos running]
    refine ⟨⟨whole, ⟨o, ?_⟩, fun _ => rfl, spansOk_nil⟩, rfl⟩
    rw [run running] at ahead
    have count : b.produced + 1 + (b.runLeft - 1) = b.produced + b.runLeft := by omega
    show (sound width lineCount o (b.produced + 1 + (b.runLeft - 1)) true .none).accepts (payload.drop b.next)
    rw [count]
    exact ahead
  · rw [if_neg running]
    have none : b.runLeft = 0 := by omega
    rw [none, Nat.add_zero] at ahead
    cases code : payload.drop b.next with
    | nil =>
      rw [code] at ahead
      exact absurd ahead (not_accepts_nil (.inr less))
    | cons c rest =>
      rw [code] at ahead
      dsimp only
      rw [if_neg (not_le.mpr less)]
      exact readCode_decodes whole none spans code less ahead

theorem OpenBand.forward_decodes {payload : List Byte} : ∀ (n : Nat) {b : OpenBand}, b.Decodes width lineCount payload →
    b.produced + n ≤ lineCount →
    (b.forward width lineCount payload n).Decodes width lineCount payload
      ∧ (b.forward width lineCount payload n).produced = b.produced + n
      ∧ (0 < n → (b.forward width lineCount payload n).line = some (b.produced + n - 1)) := by
  intro n
  induction n with
  | zero => exact fun h _ => ⟨h, rfl, fun positive => absurd positive (Nat.lt_irrefl 0)⟩
  | succ n ih =>
    intro b h fits
    obtain ⟨next, line⟩ := OpenBand.nextLine_decodes h (by omega)
    have produced : (b.nextLine width lineCount payload).produced = b.produced + 1 := by
      rw [OpenBand.produced, line]
      rfl
    obtain ⟨decodes, count, last⟩ := ih next (by omega)
    refine ⟨decodes, ?_, fun _ => ?_⟩
    · show ((b.nextLine width lineCount payload).forward width lineCount payload n).produced = _
      omega
    · show ((b.nextLine width lineCount payload).forward width lineCount payload n).line = _
      cases n with
      | zero => exact line
      | succ n => rw [last (by omega), produced]; congr 1; omega

end

/-- Settles O60: the decoder stands between two codes of the list after each line. -/
theorem goodSpanListsDecode : Obligations.GoodSpanListsDecode := by
  intro width lineCount payload band cap j good less b
  have start : ({ band := band, cap := cap : OpenBand }).Decodes width lineCount payload :=
    ⟨rfl, ⟨0, good⟩, fun positive => absurd positive (Nat.lt_irrefl 0), spansOk_nil⟩
  obtain ⟨⟨whole, -, -, within, ordered⟩, -, line⟩ := OpenBand.forward_decodes (j + 1) start
    (show 0 + (j + 1) ≤ lineCount by omega)
  have line' := line (by omega)
  have zero : ({ band := band, cap := cap : OpenBand }).produced + (j + 1) - 1 = j := by
    show 0 + (j + 1) - 1 = j
    omega
  rw [zero] at line'
  exact ⟨whole, line', within, ordered⟩

end Sys2Proof.Machine
end

section
/-! SUPPORT. The directory's timers (R38, R41). -/

namespace Sys2Proof.Machine

theorem Part.Quiet.raise_reports {p q : Part} (h : p.Quiet q) (kind : ReportKind) (x : Subject) :
    (q.raise kind x).reports = p.after kind x := (q.raise_tells kind x).1.trans h.after

theorem Part.Quiet.refl (p : Part) : p.Quiet p := ⟨rfl, rfl, rfl, rfl, rfl⟩

/-- A deadline is reached where the signed difference is not below 0 (R38, R41, R115). -/
theorem reached_iff (tick deadline : Word) : reached tick deadline = true ↔ 0 ≤ (tick - deadline).toInt := by
  rw [reached, Bool.not_eq_true', BitVec.msb_eq_false_iff_two_mul_lt, BitVec.toInt_eq_toNat_cond]
  constructor
  · intro small
    rw [if_pos small]
    exact Int.natCast_nonneg _
  · intro nonneg
    split at nonneg
    · assumption
    · have := (tick - deadline).isLt
      omega

theorem Part.stall_expired {p : Part} {n : Fin 512} {d : Word} (filling : p.slots[n].state = .filling)
    (deadline : p.slots[n].deadline = some d) (passed : 0 ≤ (p.tick - d).toInt) :
    p.stall n
      = (p.changeSlot n fun s => { s with state := .stalled, deadline := none }).raise .pageStalled
          (.stalled (p.slots[n].form n) p.slots[n].stateCodes) := by
  have expired : p.gapExpired p.slots[n] = true := by
    rw [Part.gapExpired, filling, deadline]
    exact (reached_iff _ _).mpr passed
  have slot := p.changeSlot_get n fun s => { s with state := .stalled, deadline := none }
  refine (if_pos expired).trans ?_
  dsimp only
  rw [slot]
  rfl

theorem Part.expireOrphan_reached {p : Part} {i : Nat} {o : Orphan} (here : p.orphans[i]? = some o)
    (waiting : o.binding = none) (passed : 0 ≤ (p.tick - o.expiry).toInt) :
    p.expireOrphan i = (p.setOrphans (p.orphans.eraseIdx i)).orphanDropped o .expired none := by
  have due : (o.waiting && reached p.tick o.expiry) = true := by
    rw [Bool.and_eq_true, reached_iff]
    exact ⟨by rw [Orphan.waiting, waiting]; rfl, passed⟩
  unfold Part.expireOrphan
  rw [here]
  exact if_pos due

/-- Settles O8. -/
theorem directoryTimersExpire : Obligations.DirectoryTimersExpire := by
  refine ⟨fun s n d up filling deadline passed => ?gap, fun s i o up here waiting passed => ?orphan⟩
  case gap =>
    have run : exec (.gapTimerExpiry n) s = .next { s with part := s.part.stall n } := by
      rw [exec_gapTimerExpiry, onPart_up up]
    rw [Part.stall_expired filling deadline passed] at run
    have only : s.part.Only [.mem, .port, .slots]
        (s.part.changeSlot n fun s => { s with state := .stalled, deadline := none }) := (Part.Only.refl _ _).changeSlot
    have touches : s.part.Touches (mirrorRange n :: s.part.reportRanges)
        (s.part.changeSlot n fun s => { s with state := .stalled, deadline := none }) :=
      (Part.Touches.refl _ _).changeSlot (by simp)
    have slots := s.part.changeSlot_slots n fun s => { s with state := .stalled, deadline := none }
    generalize (s.part.changeSlot n fun s => { s with state := .stalled, deadline := none }) = q
      at run only touches slots
    have reports : q.reports = s.part.reports := only .reports (by simp)
    exact ⟨_, run, (Part.raise_slots _ _ _).trans slots, only.quiet.raise_reports _ _,
      State.part_congr ((only.mono (more := [.mem, .port, .slots, .reports]) (by simp)).raise).eq_pick,
      (touches.raise (by rw [reports]; simp [Part.reportRanges_eq]) (by simp [Part.reportRanges_eq])).kept⟩
  case orphan =>
    have run : exec (.orphanExpiry i) s = .next { s with part := s.part.expireOrphan i } := by
      rw [exec_orphanExpiry, onPart_up up]
    rw [Part.expireOrphan_reached here waiting passed, Part.orphanDropped] at run
    have only : s.part.Only [.mem, .port, .orphans] (s.part.setOrphans (s.part.orphans.eraseIdx i)) :=
      (Part.Only.refl _ _).setOrphans
    have touches : s.part.Touches s.part.reportRanges (s.part.setOrphans (s.part.orphans.eraseIdx i)) :=
      (Part.Touches.refl _ _).setOrphans
    exact ⟨_, run, Part.raise_orphans _ _ _, only.quiet.raise_reports _ _,
      State.part_congr ((only.mono (more := [.mem, .port, .orphans, .reports]) (by simp)).raise).eq_pick,
      (touches.raise (by simp [Part.reportRanges_eq]) (by simp [Part.reportRanges_eq])).kept⟩

end Sys2Proof.Machine
end

section
/-! SUPPORT. What a dropped orphan, a freed slot and a released pin change (R26, R39, R41), and the DISCARDs (R45,
R46). -/

namespace Sys2Proof.Machine

/-- The report ring (R189). -/
def reportRing : Nat × Nat := (Config.offReportRing, 32768)

namespace Part.Touches

variable {ranges : List (Nat × Nat)} {p q : Part}

/-- A report, its ring entry anywhere in the ring. -/
theorem raise_ring (h : p.Touches ranges q) {k : ReportKind} {x : Subject} (ring : reportRing ∈ ranges)
    (inside : headerRange ∈ ranges) : p.Touches ranges (q.raise k x) := by
  have entry : q.Touches [ringRange q.reports.written, headerRange] (q.raise k x) :=
    (refl _ q).raise (by simp) (by simp)
  refine h.trans (entry.widen fun y hy => ?_)
  have low := Nat.mod_lt q.reports.written.toNat (show 0 < Config.ringEntries by decide)
  simp only [List.mem_cons, List.not_mem_nil, or_false] at hy
  rcases hy with rfl | rfl
  · refine ⟨reportRing, ring, ?_⟩
    simp only [reportRing, ringRange, ringOffset, Config.ringEntries] at *
    omega
  · exact ⟨headerRange, inside, Nat.le_refl _, Nat.le_refl _⟩

variable (ring : reportRing ∈ ranges) (inside : headerRange ∈ ranges)
include ring inside

theorem dropOrphans (h : p.Touches ranges q) {test : Orphan → Bool} {c : DropCause} :
    p.Touches ranges (q.dropOrphans test c) :=
  (h.setOrphans (x := q.orphans.filter fun o => !test o)).foldl _ (fun a _ => (refl _ a).raise_ring ring inside) _

theorem freeSlot (h : p.Touches ranges q) {n : Fin 512} (mirror : mirrorRange n ∈ ranges) :
    p.Touches ranges (q.freeSlot n) :=
  ((h.dropOrphans ring inside).changeSlot mirror).raise_ring ring inside

theorem releasePin (h : p.Touches ranges q) {n : Fin 512} (mirror : mirrorRange n ∈ ranges) :
    p.Touches ranges (q.releasePin n) := by
  unfold Part.releasePin
  dsimp only
  split
  · exact (h.changeSlot mirror).freeSlot ring inside mirror
  · exact h.changeSlot mirror

end Part.Touches

namespace Part.Only

variable {changed : List Table} {p q : Part} (h : p.Only changed q)
include h

theorem orphanDropped {o : Orphan} {c : DropCause} {t : Option Trample}
    (sub : [.mem, .port, .reports] ⊆ changed := by simp) : p.Only changed (q.orphanDropped o c t) := h.raise sub

theorem dropOrphans {test : Orphan → Bool} {c : DropCause}
    (sub : [.mem, .port, .reports, .orphans] ⊆ changed := by simp) :
    p.Only changed (q.dropOrphans test c) := by
  refine (h.setOrphans (x := q.orphans.filter fun o => !test o) (sub (by simp))).foldl _ (fun a o => ?_) _
  exact (refl changed a).orphanDropped (List.Subset.trans (by simp) sub)

theorem freeSlot {n : Fin 512} (sub : [.mem, .port, .reports, .orphans, .slots] ⊆ changed := by simp) :
    p.Only changed (q.freeSlot n) :=
  ((h.dropOrphans (List.Subset.trans (by simp) sub)).changeSlot (List.Subset.trans (by simp) sub)).raise
    (List.Subset.trans (by simp) sub)

theorem releasePin {n : Fin 512} (sub : [.mem, .port, .reports, .orphans, .slots] ⊆ changed := by simp) :
    p.Only changed (q.releasePin n) := by
  have unpinned : p.Only changed (q.changeSlot n fun s => { s with pins := s.pins - 1 }) :=
    h.changeSlot (List.Subset.trans (by simp) sub)
  unfold Part.releasePin
  dsimp only
  split
  · exact unpinned.freeSlot sub
  · exact unpinned

end Part.Only

namespace Part

@[simp] theorem dropOrphans_orphans (p : Part) (test : Orphan → Bool) (c : DropCause) :
    (p.dropOrphans test c).orphans = p.orphans.filter fun o => !test o := by
  have only := (Only.refl [.mem, .port, .reports] (p.setOrphans (p.orphans.filter fun o => !test o))).foldl
    (fun p o => p.orphanDropped o c none) (fun a o => (Only.refl _ a).orphanDropped) (p.orphans.filter test)
  exact only .orphans (by simp)

@[simp] theorem dropOrphans_slots (p : Part) (test : Orphan → Bool) (c : DropCause) :
    (p.dropOrphans test c).slots = p.slots :=
  ((Only.refl [.mem, .port, .reports, .orphans] p).dropOrphans (test := test) (c := c)) .slots (by simp)

/-- A freed slot keeps its allocation number; its change number advances by one (R39). -/
@[simp] theorem freeSlot_slots (p : Part) (n : Fin 512) :
    (p.freeSlot n).slots = p.slots.set n { alloc := p.slots[n].alloc, change := p.slots[n].change + 1 } := by
  unfold Part.freeSlot
  dsimp only
  refine (Part.raise_slots _ _ _).trans ?_
  rw [changeSlot_slots, dropOrphans_slots]
  exact congrArg (fun x : Vector Slot 512 => x.set n { alloc := p.slots[n].alloc, change := p.slots[n].change + 1 })
    (dropOrphans_slots p _ _)

/-- The adoptions into a freed slot leave the queue (R39). -/
@[simp] theorem freeSlot_orphans (p : Part) (n : Fin 512) :
    (p.freeSlot n).orphans = p.orphans.filter fun o => !o.boundTo { slot := n, alloc := p.slots[n].alloc } := by
  unfold Part.freeSlot
  dsimp only
  refine (Part.raise_orphans _ _ _).trans ((Part.changeSlot_orphans _ _ _).trans ?_)
  exact dropOrphans_orphans _ _ _

end Part

end Sys2Proof.Machine
end

section
/-! SUPPORT. DISCARD_PAGE and DISCARD_EDITION (R45, R46). -/

namespace Sys2Proof.Machine

theorem Part.slotsWhere_eq (p : Part) (test : Slot → Bool) :
    p.slotsWhere test = (List.finRange 512).filter fun n => test p.slots[n] := by
  rw [Part.slotsWhere, numbered_eq, List.filter_map, List.map_map]
  exact List.map_id _

/-- The numbered slot has no pin. -/
def Part.unpinned (p : Part) (n : Fin 512) : Bool := p.slots[n].pins == 0

/-- The orphan is being adopted into one of the numbered slots that have no pin. -/
def Part.abandons (p : Part) (ns : List (Fin 512)) (o : Orphan) : Bool :=
  ns.any fun n => p.unpinned n && o.boundTo { slot := n, alloc := p.slots[n].alloc }

/-- What a DISCARD of the numbered slots, each once, makes of a part: the slots with no pin are freed. -/
structure Discarded.Discards (ns : List (Fin 512)) (d e : Discarded) : Prop where
  slots : ∀ n : Fin 512, e.part.slots[n]
    = if n ∈ ns ∧ d.part.unpinned n = true then
        { alloc := d.part.slots[n].alloc, change := d.part.slots[n].change + 1 }
      else d.part.slots[n]
  orphans : e.part.orphans = d.part.orphans.filter fun o => !d.part.abandons ns o
  freed : e.freed = d.freed + ns.countP d.part.unpinned
  pinned : e.pinned = d.pinned + ns.countP fun n => !d.part.unpinned n

namespace Discarded

theorem discards_nil (d : Discarded) : d.Discards [] d :=
  ⟨fun n => by rw [if_neg (by simp)], (List.filter_eq_self.mpr fun _ _ => rfl).symm, rfl, rfl⟩

theorem slot_unpinned {d : Discarded} {n : Fin 512} (free : d.part.unpinned n = true) :
    d.slot n = { d with part := d.part.freeSlot n, freed := d.freed + 1 } := if_pos (beq_iff_eq.mp free)

theorem slot_pinned {d : Discarded} {n : Fin 512} (pinned : d.part.unpinned n = false) :
    d.slot n = { d with pinned := d.pinned + 1 } := if_neg (by simpa [Part.unpinned] using pinned)

/-- A pinned slot at the front of the DISCARD is counted. -/
theorem discards_pinned {d e : Discarded} {n : Fin 512} {ns : List (Fin 512)} (pinned : d.part.unpinned n = false)
    (rest : (d.slot n).Discards ns e) : d.Discards (n :: ns) e := by
  rw [slot_pinned pinned] at rest
  obtain ⟨slots, orphans, freed, counted⟩ := rest
  refine ⟨fun m => (slots m).trans ?_, orphans.trans ?_, freed.trans ?_, counted.trans ?_⟩
  · by_cases same : m = n
    · subst same
      rw [if_neg (fun h => absurd (pinned.symm.trans h.2) (by decide)),
        if_neg (fun h => absurd (pinned.symm.trans h.2) (by decide))]
    · simp [same]
  · simp [Part.abandons, pinned]
  · simp [pinned]
  · simp [pinned]
    omega

/-- A slot at the front of the DISCARD that has no pin is freed. -/
theorem discards_unpinned {d e : Discarded} {n : Fin 512} {ns : List (Fin 512)} (free : d.part.unpinned n = true)
    (once : n ∉ ns) (rest : (d.slot n).Discards ns e) : d.Discards (n :: ns) e := by
  rw [slot_unpinned free] at rest
  obtain ⟨slots, orphans, freed, counted⟩ := rest
  have other (m : Fin 512) (h : m ∈ ns) : (d.part.freeSlot n).slots[m] = d.part.slots[m] := by
    rw [Part.freeSlot_slots]
    exact Vector.set_other fun e => once (e ▸ h)
  have unpinned (m : Fin 512) (h : m ∈ ns) : (d.part.freeSlot n).unpinned m = d.part.unpinned m := by
    rw [Part.unpinned, other m h, Part.unpinned]
  refine ⟨fun m => (slots m).trans ?_, orphans.trans ?_, freed.trans ?_, counted.trans ?_⟩
  · by_cases same : m = n
    · subst same
      rw [if_neg fun h => once h.1, if_pos ⟨List.mem_cons_self, free⟩]
      dsimp only
      rw [Part.freeSlot_slots]
      exact Vector.set_same
    · by_cases h : m ∈ ns
      · have := unpinned m h
        have := other m h
        simp_all
      · rw [if_neg fun x => h x.1, if_neg fun x => (List.mem_cons.mp x.1).elim same h]
        dsimp only
        rw [Part.freeSlot_slots]
        exact Vector.set_other fun e => same e
  · dsimp only
    rw [Part.freeSlot_orphans, List.filter_filter]
    refine List.filter_congr fun o _ => ?_
    have tail : (d.part.freeSlot n).abandons ns o = d.part.abandons ns o := by
      unfold Part.abandons
      rw [Bool.eq_iff_iff, List.any_eq_true, List.any_eq_true]
      refine exists_congr fun m => and_congr_right fun h => ?_
      rw [unpinned m h, other m h]
    rw [tail, Part.abandons, Part.abandons, List.any_cons, free, Bool.true_and, Bool.not_or, Bool.and_comm]
  · rw [List.countP_congr fun m h => by rw [unpinned m h], List.countP_cons, if_pos free]
    dsimp only
    omega
  · dsimp only
    rw [List.countP_congr (fun m h => by rw [unpinned m h]), List.countP_cons, free]
    rfl

theorem foldl_discards : ∀ (ns : List (Fin 512)), ns.Nodup → ∀ d : Discarded,
    d.Discards ns (ns.foldl Discarded.slot d)
  | [], _, d => d.discards_nil
  | n :: ns, nodup, d => by
    obtain ⟨once, rest⟩ := List.nodup_cons.mp nodup
    cases free : d.part.unpinned n with
    | false => exact discards_pinned free (foldl_discards ns rest _)
    | true => exact discards_unpinned free once (foldl_discards ns rest _)

theorem slot_only {changed : List Table} (sub : [.mem, .port, .reports, .orphans, .slots] ⊆ changed) {p : Part}
    {d : Discarded} (h : p.Only changed d.part) (n : Fin 512) : p.Only changed (d.slot n).part := by
  unfold Discarded.slot
  split
  · exact h.freeSlot sub
  · exact h

end Discarded

/-- The slots in use that a DISCARD names. -/
def Part.namedSlots (p : Part) (names : Identity → Nat → Bool) : List (Fin 512) :=
  p.slotsWhere fun s => s.inUse && names s.id s.version

theorem Part.mem_namedSlots (p : Part) (names : Identity → Nat → Bool) (n : Fin 512) :
    n ∈ p.namedSlots names ↔ (p.slots[n].inUse && names p.slots[n].id p.slots[n].version) = true := by
  rw [Part.namedSlots, Part.slotsWhere_eq, List.mem_filter]
  exact and_iff_right (List.mem_finRange n)

theorem Part.freedBy_iff (p : Part) (names : Identity → Nat → Bool) (n : Fin 512) :
    p.freedBy names n = true ↔ n ∈ p.namedSlots names ∧ p.unpinned n = true := by
  rw [Part.freedBy, Bool.and_eq_true, ← Part.mem_namedSlots, Part.unpinned]

/-- The adoptions into the slots a DISCARD frees, and the WAITING orphans it names, leave the queue (R45). -/
theorem Part.discard_keepsOrphan (p : Part) (names : Identity → Nat → Bool) (o : Orphan) :
    (!(o.waiting && names o.id o.version) && !p.abandons (p.namedSlots names) o)
      = match o.binding with
        | none => !names o.id o.version
        | some b => !(p.freedBy names b.ref.slot && b.ref.alloc == p.slots[b.ref.slot].alloc) := by
  cases bound : o.binding with
  | none =>
    have none : p.abandons (p.namedSlots names) o = false := by
      simp [Part.abandons, Orphan.boundTo, bound]
    rw [none, Orphan.waiting, bound]
    exact Bool.and_true _
  | some b =>
    have some : p.abandons (p.namedSlots names) o
        = (p.freedBy names b.ref.slot && b.ref.alloc == p.slots[b.ref.slot].alloc) := by
      rw [Bool.eq_iff_iff, Part.abandons, List.any_eq_true, Bool.and_eq_true, Part.freedBy_iff, beq_iff_eq]
      constructor
      · rintro ⟨n, named, h⟩
        simp only [Orphan.boundTo, bound, Bool.and_eq_true, beq_iff_eq] at h
        obtain ⟨ref⟩ := b
        dsimp only at h
        obtain ⟨free, rfl⟩ := h
        exact ⟨⟨named, free⟩, rfl⟩
      · rintro ⟨⟨named, free⟩, alloc⟩
        refine ⟨_, named, ?_⟩
        simp only [Orphan.boundTo, bound, Bool.and_eq_true, beq_iff_eq]
        exact ⟨free, by rw [← alloc]⟩
    rw [some, Orphan.waiting, bound]
    rfl

theorem Part.countP_namedSlots (p : Part) (names : Identity → Nat → Bool) (test : Fin 512 → Bool) :
    (p.namedSlots names).countP test = (List.finRange 512).countP fun n =>
      p.slots[n].inUse && names p.slots[n].id p.slots[n].version && test n := by
  rw [Part.namedSlots, Part.slotsWhere_eq, List.countP_filter]
  exact List.countP_congr fun n _ => by rw [Bool.and_comm]

/-- An accepted DISCARD (R45, R46). -/
theorem Part.discard_discarded (p : Part) (names : Identity → Nat → Bool) :
    p.discarded (p.discard (fun s => names s.id s.version) fun o => names o.id o.version) names
      ∧ p.Only [.slots, .orphans, .reports, .units, .mem, .port]
          (p.discard (fun s => names s.id s.version) fun o => names o.id o.version)
      ∧ p.keptHostMemory (p.discard (fun s => names s.id s.version) fun o => names o.id o.version) := by
  refine and_assoc.mp ⟨?_, (Part.Keeps.refl p).discard.owned⟩
  have did := Discarded.foldl_discards (p.namedSlots names)
    (by rw [Part.namedSlots, Part.slotsWhere_eq]; exact (List.nodup_finRange 512).filter _) { part := p }
  have only : p.Only [.mem, .port, .reports, .orphans, .slots]
      ((p.namedSlots names).foldl Discarded.slot { part := p }).part :=
    foldl_keeps (fun d : Discarded => p.Only _ d.part) Discarded.slot
      (fun _ n h => Discarded.slot_only (List.Subset.refl _) h n) _ _ (Part.Only.refl _ p)
  have keeps : p.Keeps ((p.namedSlots names).foldl Discarded.slot { part := p }).part :=
    foldl_keeps (fun d : Discarded => p.Keeps d.part) Discarded.slot
      (fun _ _ hd => Part.Keeps.discardSlot hd) _ _ (Part.Keeps.refl p)
  unfold Part.discard
  dsimp only
  rw [← Part.namedSlots]
  generalize (p.namedSlots names).foldl Discarded.slot { part := p } = e at did only keeps
  obtain ⟨slots, orphans, freed, pinned⟩ := did
  have dropped : p.Only [.mem, .port, .reports, .orphans, .slots]
      (e.part.dropOrphans (fun o => o.waiting && names o.id o.version) .discard) := only.dropOrphans
  have kept : p.Keeps (e.part.dropOrphans (fun o => o.waiting && names o.id o.version) .discard) := keeps.dropOrphans
  have sameSlots := e.part.dropOrphans_slots (fun o => o.waiting && names o.id o.version) .discard
  have left := e.part.dropOrphans_orphans (fun o => o.waiting && names o.id o.version) .discard
  generalize e.part.dropOrphans (fun o => o.waiting && names o.id o.version) .discard = q
    at dropped kept sameSlots left
  rw [Part.countP_namedSlots, Nat.zero_add] at freed pinned
  refine ⟨⟨fun n => ?_, ?_, ?_⟩, (dropped.mono (by simp)).finish⟩
  · rw [Part.finish_slots, sameSlots, slots]
    exact if_congr (Part.freedBy_iff _ _ _).symm rfl rfl
  · rw [Part.finish_orphans, left, orphans, List.filter_filter]
    exact List.filter_congr fun o _ => p.discard_keepsOrphan names o
  · rw [freed, pinned]
    exact Part.finish_ended_of (dropped .units (by simp)) kept.cabase kept.wf

/-- Settles O53. -/
theorem discard : Obligations.Discard := by
  intro s f page edition
  refine ⟨fun runs sep low high => ?accepted, fun runs bad => ?refused, fun runs => ?edition⟩
  case accepted =>
    have run : exec .discardPage s = .next { s with part := s.part.doDiscardPage } := by
      rw [exec_discardPage, onPart_runs runs]
    have inRange : ¬ (3 < f.sep ∨ f.page < 1 ∨ 999 < f.page) := by omega
    have acts : s.part.doDiscardPage = s.part.discard (fun s => page s.id s.version) fun o => page o.id o.version :=
      if_neg inRange
    rw [acts] at run
    obtain ⟨discarded, only, kept⟩ := s.part.discard_discarded page
    exact ⟨_, run, discarded, State.part_congr only.eq_pick, kept⟩
  case refused =>
    have run : exec .discardPage s = .next { s with part := s.part.doDiscardPage } := by
      rw [exec_discardPage, onPart_runs runs]
    have acts : s.part.doDiscardPage = s.part.finishFree .directory .badParam := if_pos bad
    rw [acts] at run
    exact State.ends_of_finishFree run
  case edition =>
    have run : exec .discardEdition s = .next { s with part := s.part.doDiscardEdition } := by
      rw [exec_discardEdition, onPart_runs runs]
    have acts : s.part.doDiscardEdition
        = s.part.discard (fun s => edition s.id s.version) fun o => edition o.id o.version := rfl
    rw [acts] at run
    obtain ⟨discarded, only, kept⟩ := s.part.discard_discarded edition
    exact ⟨_, run, discarded, State.part_congr only.eq_pick, kept⟩

end Sys2Proof.Machine
end

section
/-! SUPPORT. Reads of plate windows (R126 to R130, R136). -/

namespace Sys2Proof.Machine

theorem Vector.get_of_eq_set {α : Type} {n : Nat} {v w : Vector α n} {i : Fin n} {x : α} (h : v = w.set i x) :
    v[i] = x := by
  rw [h]
  exact Vector.set_same

section
variable {r : ReadBlock} {k : Fin 2} {offset : Nat} {s : State} {q : Part} {o : Option (List Byte)}

/-- A plate-window read that the channel's composer takes (R125, R167). -/
theorem exec_plateRead (up : s.resetn = true) (aligned : r.addr.toNat % 64 = 0)
    (reads : s.part.readsPlate r.addr.toNat k offset) (free : s.part.channels[k].inHand = none)
    (taken : s.part.windowRead k offset r.source r.returned = (q, o)) :
    exec (.plateWindowRead r) s = .next
        { s with part := q, xfers := addBlock s.xfers r.source true r.addr.toNat (readOutcome k o) r.last }
      ∧ exec (.upstreamReadBlock r) s = .next
        { s with part := q, xfers := addBlock s.xfers r.source true r.addr.toNat (readOutcome k o) r.last } := by
  obtain ⟨n, cls, rfl, rfl⟩ := reads
  have window : s.part.readWindow r n = some (q, readOutcome s.part.windows[n].channel o) := by
    unfold Part.readWindow
    dsimp only
    rw [free, taken]
    rfl
  have block : s.part.takeReadBlock r = some (q, readOutcome s.part.windows[n].channel o) := by
    rw [Part.takeReadBlock, cls]
    exact window
  rw [exec_plateWindowRead, exec_upstreamReadBlock, onBlock_aligned aligned, whenUp_up up, State.takeRead, block]
  exact ⟨rfl, rfl⟩

end

theorem Channel.endDraining_empty {c : Channel} (queue : c.queue = []) :
    c.endDraining = { c with state := .idle, idlePending := true } := by
  unfold Channel.endDraining
  split
  · rfl
  · rename_i h
    exact absurd (queue.symm.trans h) (List.cons_ne_nil _ _).symm

theorem Channel.endDraining_next {c : Channel} {n : Fin 64} {behind : List (Fin 64)} (queue : c.queue = n :: behind) :
    c.endDraining = { c with state := .primed } := by
  unfold Channel.endDraining
  split
  · rename_i h
    exact absurd (queue.symm.trans h) (List.cons_ne_nil _ _)
  · rfl

namespace Part

section
variable (p : Part) (k : Fin 2) (offset : Nat)

/-- CHANNEL_IDLE_READ (R127). -/
def idleReadSubject (source : Fin 16) : Subject :=
  .plate { plate := 255, channel := k.val, tail := leBytes 4 offset ++ leBytes 1 source.val }

/-- The channel after a read in IDLE (R127). -/
def idleReadChannel (c : Channel) : Channel :=
  { c with idleReads := satInc Config.max32 c.idleReads, idlePending := false }

theorem idleRead_channels (source : Fin 16) :
    (p.idleRead k offset source).channels = p.channels.set k (idleReadChannel p.channels[k]) := by
  unfold idleRead
  dsimp only
  split
  · exact (raise_channels _ _ _).trans (headerWrite_channels _ _)
  · rfl

theorem idleRead_only (source : Fin 16) :
    p.Only [.channels, .reports, .mem, .port] (p.idleRead k offset source) := by
  unfold idleRead
  dsimp only
  split
  · exact (((Only.refl _ p).setChannel).headerWrite).raise
  · exact (Only.refl _ p).setChannel

theorem idleRead_reports (source : Fin 16) :
    (p.idleRead k offset source).reports
      = if p.channels[k].idlePending then p.after .channelIdleRead (idleReadSubject k offset source)
        else p.reports := by
  unfold idleRead
  dsimp only
  split
  · exact (((Only.refl [.channels, .mem, .port] p).setChannel).headerWrite).quiet.raise_reports _ _
  · rfl

theorem idleRead_touches (source : Fin 16) : p.Touches p.reportRanges (p.idleRead k offset source) := by
  unfold idleRead
  dsimp only
  split
  · refine (((Touches.refl _ p).setChannel).headerWrite ?_).raise ?_ ?_
    · simp [reportRanges_eq]
    · rw [headerWrite_reports]
      simp [reportRanges_eq, setChannel]
    · simp [reportRanges_eq]
  · exact (Touches.refl _ p).setChannel

/-- The block is taken in hand for its preparation (R137). -/
theorem takeInHand_channels (n : Fin 64) (cells : List Host.Cell) :
    ∃ cursors items, (p.takeInHand k n offset cells).channels = p.channels.set k
      { p.channels[k] with
        cursors := cursors
        inHand := some { offset := offset, plate := n, copy := p.plates[n].copy, items := items } } := by
  unfold takeInHand
  dsimp only
  split
  · exact ⟨_, _, rfl⟩
  · exact ⟨_, _, rfl⟩

theorem takeInHand_only (n : Fin 64) (cells : List Host.Cell) :
    p.Only [.channels, .port] (p.takeInHand k n offset cells) := by
  unfold takeInHand
  dsimp only
  split
  · exact ((Only.refl _ p).ownRead).setChannel
  · exact (Only.refl _ p).setChannel

theorem takeInHand_touches (n : Fin 64) (cells : List Host.Cell) :
    p.Touches [] (p.takeInHand k n offset cells) := by
  unfold takeInHand
  dsimp only
  split
  · exact ((Touches.refl _ p).ownRead).setChannel
  · exact (Touches.refl _ p).setChannel

end

theorem changePlate_set {p : Part} {n : Fin 64} {plates : Vector Plate 64} {x : Plate} (h : p.plates = plates.set n x)
    (f : Plate → Plate) : (p.changePlate n f).plates = plates.set n (f x) := by
  show p.plates.set n (f p.plates[n]) = _
  rw [h, Vector.set_same, Vector.set_set]

theorem setChannel_set {p : Part} {k : Fin 2} {channels : Vector Channel 2} {x y : Channel}
    (h : p.channels = channels.set k x) : (p.setChannel k y).channels = channels.set k y := by
  show p.channels.set k y = _
  rw [h, Vector.set_set]

/-- The plate as it starts (R114, R128). -/
def startedPlate (x : Plate) (tick : Word) : Plate :=
  { x with
    state := .exposing
    summary := { x.summary with startTick := tick, exposedForced := x.forced, repinsAtStart := x.repins } }

/-- PLATE_STARTED (R114, R207). -/
def startedSubject (p : Part) (n : Fin 64) : Subject :=
  .plate { label := p.plates[n].copy.label, plate := n.val, channel := p.plates[n].copy.channel.val
           forced := p.plates[n].forced, tail := p.plates[n].startedTail }

/-- A part whose head plate has started, its report not yet raised (R114, R128). -/
structure PlateStarts (p : Part) (k : Fin 2) (n : Fin 64) (q : Part) : Prop where
  plates : q.plates = p.plates.set n (startedPlate p.plates[n] p.tick)
  channels : ∃ cursors, q.channels = p.channels.set k
    { p.channels[k].startPass with state := .exposing, pass := 0, cursors := cursors }
  only : p.Only [.plates, .channels, .mem, .port] q
  touches : p.Touches (plateRange n :: p.reportRanges) q

theorem startPlate_started (p : Part) (k : Fin 2) (n : Fin 64) :
    ∃ q, p.startPlate k n = q.raise .plateStarted (p.startedSubject n) ∧ p.PlateStarts k n q := by
  have only : (p.changePlate n fun x => { x with state := .exposing }).Only [.channels, .mem, .port]
      ((p.changePlate n fun x => { x with state := .exposing }).changeChannel k fun c =>
        { c.startPass with state := .exposing, pass := 0 }) := (Only.refl _ _).changeChannel
  have touches : p.Touches (plateRange n :: p.reportRanges)
      ((p.changePlate n fun x => { x with state := .exposing }).changeChannel k fun c =>
        { c.startPass with state := .exposing, pass := 0 }) :=
    ((Touches.refl _ p).changePlate).changeChannel (by simp [reportRanges_eq])
  have channels := (p.changePlate n fun x => { x with state := .exposing }).changeChannel_channels k fun c =>
    { c.startPass with state := .exposing, pass := 0 }
  unfold startPlate
  dsimp only
  generalize ((p.changePlate n fun x => { x with state := .exposing }).changeChannel k fun c =>
    { c.startPass with state := .exposing, pass := 0 }) = a at only touches channels
  have plates : a.plates = p.plates.set n { p.plates[n] with state := .exposing } := only .plates (by simp)
  have tick : a.tick = p.tick := only .tick (by simp)
  have all : p.Only [.plates, .channels, .mem, .port] a :=
    ((Only.refl _ p).changePlate).trans (only.mono (by simp))
  have here : a.channels[k] = { p.channels[k].startPass with state := .exposing, pass := 0 } := by
    rw [channels]
    exact Vector.set_same
  have cursors : (a.setChannel k { a.channels[k] with cursors := a.newCursors n }).channels
      = p.channels.set k
        { p.channels[k].startPass with state := .exposing, pass := 0, cursors := a.newCursors n } := by
    rw [here]
    exact setChannel_set channels
  have all := all.setChannel (k := k) (x := { a.channels[k] with cursors := a.newCursors n })
  have touches := touches.setChannel (k := k) (x := { a.channels[k] with cursors := a.newCursors n })
  have plates : (a.setChannel k { a.channels[k] with cursors := a.newCursors n }).plates
    = p.plates.set n { p.plates[n] with state := .exposing } := plates
  generalize a.setChannel k { a.channels[k] with cursors := a.newCursors n } = b at cursors all touches plates
  have tick : b.tick = p.tick := all .tick (by simp)
  have plates := changePlate_set plates fun x =>
    { x with summary := { x.summary with startTick := b.tick, exposedForced := x.forced, repinsAtStart := x.repins } }
  rw [tick] at plates ⊢
  have all := all.changePlate (n := n) (f := fun x =>
    { x with summary := { x.summary with startTick := p.tick, exposedForced := x.forced, repinsAtStart := x.repins } })
  have touches := touches.changePlate (n := n) (f := fun x =>
    { x with summary := { x.summary with startTick := p.tick, exposedForced := x.forced, repinsAtStart := x.repins } })
  have channels : (b.changePlate n fun x =>
      { x with summary := { x.summary with startTick := p.tick, exposedForced := x.forced, repinsAtStart := x.repins } }
      ).channels = b.channels := rfl
  generalize (b.changePlate n fun x =>
    { x with summary := { x.summary with startTick := p.tick, exposedForced := x.forced, repinsAtStart := x.repins } })
    = c at plates all touches channels
  have started : c.plates[n] = startedPlate p.plates[n] p.tick := by
    rw [plates]
    exact Vector.set_same
  refine ⟨c.plateStatus n, ?_, (plateStatus_plates c n).trans plates,
    ⟨_, (plateStatus_channels c n).trans (channels.trans cursors)⟩, all.plateStatus,
    touches.plateStatus (by simp)⟩
  rw [channelForm, plateForm, started]
  rfl

/-- PLATE_RESTARTED (R130, R207). -/
def restartedSubject (p : Part) (k : Fin 2) (n : Fin 64) : Subject :=
  .plate { label := p.plates[n].copy.label, plate := n.val, channel := p.plates[n].copy.channel.val
           pass := satInc Config.max16 p.channels[k].pass
           tail := leBytes 4 (p.channels[k].nextOffset - 64)
             ++ leBytes 2 ((p.channels[k].nextOffset - 64) / (p.plates[n].copy.width / 8)) }

/-- The plate as its pass restarts (R130). -/
def restartedPlate (x : Plate) : Plate :=
  { x with summary := { x.summary with restarts := satInc Config.max16 x.summary.restarts } }

/-- A part whose pass has restarted, its report not yet raised (R130). -/
structure PassRestarts (p : Part) (k : Fin 2) (n : Fin 64) (q : Part) : Prop where
  plates : q.plates = p.plates.set n (restartedPlate p.plates[n])
  channels : ∃ cursors, q.channels = p.channels.set k
    { p.channels[k].startPass with pass := satInc Config.max16 p.channels[k].pass, cursors := cursors }
  only : p.Only [.plates, .channels, .mem, .port] q
  touches : p.Touches (plateRange n :: p.reportRanges) q

/-- The tables as the pass restarts (R130). -/
def passTables (p : Part) (k : Fin 2) (n : Fin 64) : Part :=
  (p.setChannel k { p.channels[k].startPass with pass := satInc Config.max16 p.channels[k].pass
                                                 cursors := p.newCursors n }).setPlate n (restartedPlate p.plates[n])

theorem restartPass_restarts (p : Part) (k : Fin 2) (n : Fin 64) :
    ∃ q, p.restartPass k n = q.raise .plateRestarted (p.restartedSubject k n) ∧ p.PassRestarts k n q := by
  have only : p.Only [.plates, .channels, .mem, .port] (p.passTables k n) := ((Only.refl _ p).setChannel).setPlate
  have touches : p.Touches (plateRange n :: p.reportRanges) (p.passTables k n) :=
    ((Touches.refl _ p).setChannel).setPlate
  have plate : (p.passTables k n).plates[n] = restartedPlate p.plates[n] := Vector.set_same
  have channel : (p.passTables k n).channels[k]
    = { p.channels[k].startPass with pass := satInc Config.max16 p.channels[k].pass, cursors := p.newCursors n } :=
    Vector.set_same
  have acts : p.restartPass k n = ((p.passTables k n).plateStatus n).raise .plateRestarted
      (.plate { (p.passTables k n).channelForm n with
        pass := (p.passTables k n).channels[k].pass
        tail := leBytes 4 (p.channels[k].nextOffset - 64)
          ++ leBytes 2 ((p.passTables k n).plates[n].copy.lineAt (p.channels[k].nextOffset - 64)) }) := by
    unfold restartPass passTables
    dsimp only
    rw [plateStatus_channels]
    rfl
  refine ⟨(p.passTables k n).plateStatus n, acts.trans ?_, plateStatus_plates _ _, ⟨_, plateStatus_channels _ _⟩,
    only.plateStatus,
    touches.plateStatus (by simp)⟩
  rw [channelForm, plateForm, plate, channel]
  rfl

/-! ## Reads by channel state -/

theorem tells_congr {p a q : Part} {kind : ReportKind} {x : Subject} (told : p.tells a kind x)
    (reports : q.reports = a.reports) (mem : q.mem = a.mem) : p.tells q kind x := by
  obtain ⟨after, records⟩ := told
  exact ⟨reports.trans after, fun passes up room wf => mem ▸ records passes up room wf⟩

/-- What a read that takes its block in hand leaves of the part (R137), with the plate and the channel it is taken
for. -/
structure TakesBlock (p : Part) (k : Fin 2) (n : Fin 64) (offset : Nat) (plate : Plate) (channel : Channel)
    (q : Part) : Prop where
  plates : q.plates = p.plates.set n plate
  channels : ∃ cursors items, q.channels = p.channels.set k
    { channel with
      cursors := cursors
      inHand := some { offset := offset, plate := n, copy := p.plates[n].copy, items := items } }
  only : p.Only [.plates, .channels, .reports, .mem, .port] q
  touches : p.Touches (plateRange n :: p.reportRanges) q

/-- A block taken in hand after a report. -/
theorem takeInHand_takes {p a : Part} {k : Fin 2} {n : Fin 64} {plate : Plate} {channel : Channel}
    (plates : a.plates = p.plates.set n plate) (channels : ∃ cursors, a.channels = p.channels.set k
      { channel with cursors := cursors })
    (only : p.Only [.plates, .channels, .mem, .port] a) (touches : p.Touches (plateRange n :: p.reportRanges) a)
    (copy : plate.copy = p.plates[n].copy) (offset : Nat) (cells : List Host.Cell) (kind : ReportKind) (x : Subject) :
    p.TakesBlock k n offset plate channel ((a.raise kind x).takeInHand k n offset cells)
      ∧ p.tells ((a.raise kind x).takeInHand k n offset cells) kind x := by
  have tells := only.quiet.tells touches.wf (a.raise_tells kind x)
  have raised : p.Only [.plates, .channels, .reports, .mem, .port] (a.raise kind x) := (only.mono (by simp)).raise
  have reports : a.reports = p.reports := only .reports (by simp)
  have told : p.Touches (plateRange n :: p.reportRanges) (a.raise kind x) :=
    touches.raise (by rw [reports]; simp [reportRanges_eq]) (by simp [reportRanges_eq])
  have plates := (raise_plates a kind x).trans plates
  have channels : ∃ cursors, (a.raise kind x).channels = p.channels.set k { channel with cursors := cursors } := by
    rwa [raise_channels]
  generalize a.raise kind x = b at tells raised told plates channels
  have held := b.takeInHand_only k offset n cells
  have bytes := b.takeInHand_touches k offset n cells
  obtain ⟨cursors, items, taken⟩ := b.takeInHand_channels k offset n cells
  generalize b.takeInHand k n offset cells = q at held bytes taken
  have here : b.plates[n] = plate := by
    rw [plates]
    exact Vector.set_same
  obtain ⟨before, channels⟩ := channels
  rw [channels, Vector.set_same, Vector.set_set, here, copy] at taken
  refine ⟨⟨(held .plates (by simp)).trans plates, ⟨cursors, items, taken⟩, raised.trans (held.mono (by simp)),
    told.trans (bytes.mono (by simp))⟩, tells_congr tells (held .reports (by simp)) (held .mem (by simp))⟩

section
variable {p : Part} {k : Fin 2} {n : Fin 64} {behind : List (Fin 64)} {offset : Nat} {source : Fin 16}
  {cells : List Host.Cell}

theorem exposingRead_first (inside : offset < p.plates[n].copy.rasterBytes) (fresh : p.channels[k].beyondZero = false)
    (start : p.channels[k].nextOffset = 0) : p.exposingRead k n offset cells
      = (p.takeInHand k n offset cells, none) := by
  unfold exposingRead
  dsimp only
  rw [if_neg (Nat.not_le.mpr inside), if_neg (fun h => Bool.false_ne_true (fresh.symm.trans h.2)),
    if_neg (fun h => h.2 start)]

/-- The first read of a PRIMED channel inside the raster (R114, R128). -/
theorem readUndrained_primed (state : p.channels[k].state = .primed) (queue : p.channels[k].queue = n :: behind)
    (inside : offset < p.plates[n].copy.height * (p.plates[n].copy.width / 8)) :
    ∃ q, p.readUndrained k offset source cells = (q, none)
      ∧ p.TakesBlock k n offset (startedPlate p.plates[n] p.tick)
          { p.channels[k].startPass with state := .exposing, pass := 0 } q
      ∧ p.tells q .plateStarted (p.startedSubject n) := by
  obtain ⟨a, starts, plates, ⟨cursors, channels⟩, only, touches⟩ := p.startPlate_started k n
  have plate : (p.startPlate k n).plates[n] = startedPlate p.plates[n] p.tick := by
    rw [starts, raise_plates, plates]
    exact Vector.set_same
  have channel : (p.startPlate k n).channels[k]
      = { p.channels[k].startPass with state := .exposing, pass := 0, cursors := cursors } := by
    rw [starts, raise_channels, channels]
    exact Vector.set_same
  have read : p.readUndrained k offset source cells = ((p.startPlate k n).takeInHand k n offset cells, none) := by
    have exposing : p.readUndrained k offset source cells = (p.startPlate k n).exposingRead k n offset cells := by
      simp only [readUndrained, state, queue]
    exact exposing.trans (exposingRead_first (by rw [plate]; exact inside) (by rw [channel]; rfl)
      (by rw [channel]; rfl))
  rw [read, starts]
  exact ⟨_, rfl, takeInHand_takes plates ⟨cursors, channels⟩ only touches rfl offset cells _ _⟩

theorem readUndrained_exposing (state : p.channels[k].state = .exposing) (queue : p.channels[k].queue = n :: behind) :
    p.readUndrained k offset source cells = p.exposingRead k n offset cells := by
  simp only [readUndrained, state, queue]

theorem exposingRead_beyond (beyond : p.plates[n].copy.height * (p.plates[n].copy.width / 8) ≤ offset) :
    p.exposingRead k n offset cells
      = (p.setPlate n { p.plates[n] with
          summary := { p.plates[n].summary with overruns := satInc Config.max32 p.plates[n].summary.overruns } },
        some zeroBlock) := if_pos beyond

/-- A read at offset 0 after a block beyond it (R130). -/
theorem exposingRead_again (raster : 0 < p.plates[n].copy.height * (p.plates[n].copy.width / 8))
    (again : p.channels[k].beyondZero = true) :
    ∃ q, p.exposingRead k n 0 cells = (q, none)
      ∧ p.TakesBlock k n 0 (restartedPlate p.plates[n])
          { p.channels[k].startPass with pass := satInc Config.max16 p.channels[k].pass } q
      ∧ p.tells q .plateRestarted (p.restartedSubject k n) := by
  obtain ⟨a, restarts, plates, ⟨cursors, channels⟩, only, touches⟩ := p.restartPass_restarts k n
  have read : p.exposingRead k n 0 cells = ((p.restartPass k n).takeInHand k n 0 cells, none) := by
    have inside : ¬ p.plates[n].copy.rasterBytes ≤ 0 := Nat.not_le.mpr raster
    rw [exposingRead, if_neg inside, if_pos ⟨rfl, again⟩]
  rw [read, restarts]
  exact ⟨_, rfl, takeInHand_takes plates ⟨cursors, channels⟩ only touches rfl 0 cells _ _⟩

theorem readUndrained_idle (state : p.channels[k].state = .idle) :
    p.readUndrained k offset source cells = (p.idleRead k offset source, some zeroBlock) := by
  simp only [readUndrained, state]

/-- The part as its channel's draining ends (R136). -/
def undrained (p : Part) (k : Fin 2) : Part := p.changeChannel k Channel.endDraining

theorem undrained_only (p : Part) (k : Fin 2) : p.Only [.channels, .mem, .port] (p.undrained k) :=
  (Only.refl _ p).changeChannel

theorem undrained_touches (p : Part) (k : Fin 2) : p.Touches p.reportRanges (p.undrained k) :=
  (Touches.refl _ p).changeChannel (by simp [reportRanges_eq])

theorem undrained_channels (p : Part) (k : Fin 2) :
    (p.undrained k).channels = p.channels.set k p.channels[k].endDraining := p.changeChannel_channels k _

theorem reportRanges_congr {p q : Part} (reports : q.reports = p.reports) : q.reportRanges = p.reportRanges := by
  rw [reportRanges, reports, reportRanges]

theorem windowRead_undrained (state : p.channels[k].state ≠ .draining) :
    p.windowRead k offset source cells = p.readUndrained k offset source cells := if_neg state

theorem windowRead_drained (state : p.channels[k].state = .draining) :
    p.windowRead k 0 source cells = (p.undrained k).readUndrained k 0 source cells := by
  rw [windowRead, if_pos state, if_pos rfl, undrained]

theorem windowRead_draining (state : p.channels[k].state = .draining) (offset_ne : offset ≠ 0) :
    p.windowRead k offset source cells
      = (p.setChannel k { p.channels[k] with drainReads := satInc Config.max32 p.channels[k].drainReads },
        some zeroBlock) := by
  rw [windowRead, if_pos state, if_neg offset_ne]

end

end Part

theorem State.partXfers_congr {s : State} {p q : Part} {xfers : List Xfer} (h : p = q) :
    ({ s with part := p, xfers := xfers } : State) = { s with part := q, xfers := xfers } := by rw [h]

/-- Settles O33. -/
theorem idleReadIsCounted : Obligations.IdleReadIsCounted := by
  intro r k offset s up aligned reads free told zeroed
  refine ⟨fun state => ?idle, fun state beyond => ?draining, fun state zero queue => ?drained,
    fun n behind state zero queue raster => ?next⟩
  case idle =>
    have undrained : s.part.channels[k].state ≠ .draining := by rw [state]; decide
    have taken := (s.part.windowRead_undrained (offset := offset) (source := r.source) (cells := r.returned)
      undrained).trans (s.part.readUndrained_idle state)
    obtain ⟨run, run'⟩ := exec_plateRead up aligned reads free taken
    exact ⟨_, run, run', s.part.idleRead_channels k offset _, s.part.idleRead_reports k offset _,
      State.partXfers_congr (s.part.idleRead_only k offset _).eq_pick, (s.part.idleRead_touches k offset _).kept⟩
  case draining =>
    exact (exec_plateRead up aligned reads free (s.part.windowRead_draining state beyond)).1
  case drained =>
    subst zero
    have read := s.part.windowRead_drained (source := r.source) (cells := r.returned) state
    have only := s.part.undrained_only k
    have touches := s.part.undrained_touches k
    have channels := s.part.undrained_channels k
    rw [Channel.endDraining_empty queue] at channels
    generalize s.part.undrained k = a at only touches channels read
    have here : a.channels[k] = { s.part.channels[k] with state := .idle, idlePending := true } := 
      Vector.get_of_eq_set channels
    have counted := a.idleRead_channels k 0 r.source
    have raised := a.idleRead_reports k 0 r.source
    rw [here, if_pos rfl, only.quiet.after] at raised
    rw [here, channels, Vector.set_set] at counted
    have ranges := Part.reportRanges_congr (only .reports (by simp))
    exact ⟨_, (exec_plateRead up aligned reads free (read.trans (a.readUndrained_idle (by rw [here])))).1, counted,
      raised, State.partXfers_congr ((only.mono (by simp)).trans (a.idleRead_only k 0 _)).eq_pick,
      (touches.trans (ranges ▸ a.idleRead_touches k 0 _)).kept⟩
  case next =>
    subst zero
    have read := s.part.windowRead_drained (source := r.source) (cells := r.returned) state
    have only := s.part.undrained_only k
    have channels := s.part.undrained_channels k
    rw [Channel.endDraining_next queue] at channels
    generalize s.part.undrained k = a at only channels read
    have here : a.channels[k] = { s.part.channels[k] with state := .primed } := 
      Vector.get_of_eq_set channels
    have plates : a.plates = s.part.plates := only .plates (by simp)
    have tick : a.tick = s.part.tick := only .tick (by simp)
    obtain ⟨q, taken, block, -⟩ := a.readUndrained_primed (n := n) (behind := behind) (offset := 0) (source := r.source)
      (cells := r.returned) (by rw [here]) (by rw [here]; exact queue) (by rw [plates]; exact raster)
    obtain ⟨plates', ⟨cursors, items, channels'⟩, -, -⟩ := block
    rw [here, channels, Vector.set_set] at channels'
    rw [plates, tick] at plates'
    have own := Vector.get_of_eq_set channels'
    have plate : q.plates[n] = Part.startedPlate s.part.plates[n] s.part.tick := 
      Vector.get_of_eq_set plates'
    refine ⟨_, (exec_plateRead up aligned reads free (read.trans taken)).1, ?_⟩
    refine ⟨by rw [own], by rw [own]; exact queue, by rw [own], by rw [own]; rfl, by rw [own]; rfl, by rw [own]; rfl,
      by rw [plate]; rfl, by rw [plate]; rfl, fun j other => ?_, fun j other => ?_, rfl⟩
    · rw [plates']
      exact Vector.set_other other
    · rw [channels']
      exact Vector.set_other other

/-- Settles O34. -/
theorem firstReadStartsThePlate : Obligations.FirstReadStartsThePlate := by
  intro r k offset n behind s up aligned reads free queue raster last
  refine ⟨fun state inside => ?starts, fun state beyond => ?overrun, fun state zero inside again => ?restarts⟩
  case starts =>
    have undrained : s.part.channels[k].state ≠ .draining := by rw [state]; decide
    obtain ⟨q, taken, ⟨plates, ⟨cursors, items, channels⟩, only, touches⟩, ⟨reports, -⟩⟩ :=
      s.part.readUndrained_primed (source := r.source) (cells := r.returned) state queue inside
    obtain ⟨run, -⟩ := exec_plateRead up aligned reads free ((s.part.windowRead_undrained undrained).trans taken)
    have own := Vector.get_of_eq_set channels
    refine ⟨_, run, plates, ?_, ⟨items, by rw [own]⟩, reports, State.partXfers_congr only.eq_pick, touches.kept⟩
    dsimp only
    rw [own]
    exact channels
  case overrun =>
    have undrained : s.part.channels[k].state ≠ .draining := by rw [state]; decide
    have taken := (s.part.windowRead_undrained (source := r.source) (cells := r.returned) undrained).trans
      ((s.part.readUndrained_exposing state queue).trans (Part.exposingRead_beyond beyond))
    exact (exec_plateRead up aligned reads free taken).1
  case restarts =>
    subst zero
    have undrained : s.part.channels[k].state ≠ .draining := by rw [state]; decide
    obtain ⟨q, taken, ⟨plates, ⟨cursors, items, channels⟩, only, touches⟩, told⟩ :=
      Part.exposingRead_again (cells := r.returned) inside again
    obtain ⟨run, -⟩ := exec_plateRead up aligned reads free
      ((s.part.windowRead_undrained undrained).trans ((s.part.readUndrained_exposing state queue).trans taken))
    have own := Vector.get_of_eq_set channels
    refine ⟨_, run, plates, ?_, ⟨items, by rw [own]⟩, told, State.partXfers_congr only.eq_pick, touches.kept⟩
    dsimp only
    rw [own]
    exact channels

end Sys2Proof.Machine
end

section
/-! SUPPORT. The accounting of a served block (R131 to R134, R143). -/

namespace Sys2Proof.Machine

namespace Part

/-- What the reports of a served block touch: its plate's status record, the report ring, the status header. -/
def servedRanges (n : Fin 64) : List (Nat × Nat) := [plateRange n, reportRing, headerRange]

section
variable (p : Part) (k : Fin 2) (n : Fin 64) (o : Nat)

theorem reportHatch_spec (cause : Option HatchCause) :
    (∃ d, (p.reportHatch k n o cause).channels = p.channels.set k { p.channels[k] with damageRaised := d })
      ∧ p.Only [.channels, .reports, .mem, .port] (p.reportHatch k n o cause)
      ∧ p.Touches (servedRanges n) (p.reportHatch k n o cause) := by
  have same : p.channels = p.channels.set k { p.channels[k] with damageRaised := p.channels[k].damageRaised } :=
    (Vector.set_getElem_self k.isLt).symm
  unfold reportHatch
  split
  · exact ⟨⟨_, same⟩, Only.refl _ _, Touches.refl _ _⟩
  · split
    · exact ⟨⟨_, same⟩, Only.refl _ _, Touches.refl _ _⟩
    · dsimp only
      exact ⟨⟨true, (raise_channels _ _ _).trans (plateStatus_channels _ _)⟩,
        (((Only.refl _ p).setChannel).plateStatus).raise,
        (((Touches.refl _ p).setChannel).plateStatus (by simp [servedRanges])).raise_ring (by simp [servedRanges])
          (by simp [servedRanges])⟩

theorem reportMark_spec :
    (∃ m, (p.reportMark k n o).channels = p.channels.set k { p.channels[k] with markRaised := m })
      ∧ p.Only [.channels, .reports, .mem, .port] (p.reportMark k n o)
      ∧ p.Touches (servedRanges n) (p.reportMark k n o) := by
  have same : p.channels = p.channels.set k { p.channels[k] with markRaised := p.channels[k].markRaised } :=
    (Vector.set_getElem_self k.isLt).symm
  unfold reportMark
  dsimp only
  split
  · exact ⟨⟨true, (raise_channels _ _ _).trans (plateStatus_channels _ _)⟩,
      (((Only.refl _ p).setChannel).plateStatus).raise,
      (((Touches.refl _ p).setChannel).plateStatus (by simp [servedRanges])).raise_ring (by simp [servedRanges])
        (by simp [servedRanges])⟩
  · exact ⟨⟨_, same⟩, Only.refl _ _, Touches.refl _ _⟩

end

/-- The tables after steps 1 to 4 of the accounting (R131). -/
def accountTables (p : Part) (k : Fin 2) (h : InHand) (x : Composed) : Part :=
  (p.setChannel k { p.channels[k].account h.offset x.bytes with inHand := none }).changeSummary h.plate fun s =>
    s.account (h.copy.columnAt h.offset == h.copy.stride / 64 - 1) x.cause.isSome

/-- The part after the accounting of a block, before the end of its plate (R131 to R133). -/
def accounted (p : Part) (k : Fin 2) (h : InHand) (x : Composed) : Part :=
  ((p.accountTables k h x).reportHatch k h.plate h.offset x.cause).reportMark k h.plate h.offset

theorem accountBlock_eq (p : Part) (k : Fin 2) (h : InHand) (x : Composed) :
    p.accountBlock k h x
      = if h.offset + 64 = h.copy.rasterBytes then (p.accounted k h x).endPlate k h.plate else p.accounted k h x := rfl

/-- The plate whose block has been served (R131). -/
def accountedPlate (x : Plate) (h : InHand) (cause : Option HatchCause) : Plate :=
  { x with summary := x.summary.account (h.copy.columnAt h.offset == h.copy.stride / 64 - 1) cause.isSome }

theorem accounted_spec (p : Part) (k : Fin 2) (h : InHand) (x : Composed) :
    (p.accounted k h x).plates = p.plates.set h.plate (accountedPlate p.plates[h.plate] h x.cause)
      ∧ (∃ d m, (p.accounted k h x).channels = p.channels.set k
          { p.channels[k].account h.offset x.bytes with inHand := none, damageRaised := d, markRaised := m })
      ∧ p.Only [.channels, .plates, .reports, .mem, .port] (p.accounted k h x)
      ∧ p.Touches (servedRanges h.plate) (p.accounted k h x) := by
  have only : p.Only [.channels, .plates, .reports, .mem, .port] (p.accountTables k h x) :=
    ((Only.refl _ p).setChannel).changePlate
  have touches : p.Touches (servedRanges h.plate) (p.accountTables k h x) :=
    (Touches.refl _ p).tables _
  have plates : (p.accountTables k h x).plates
    = p.plates.set h.plate (accountedPlate p.plates[h.plate] h x.cause) := rfl
  have channels : (p.accountTables k h x).channels
    = p.channels.set k { p.channels[k].account h.offset x.bytes with inHand := none } := rfl
  unfold accounted
  generalize p.accountTables k h x = a at only touches plates channels
  obtain ⟨⟨d, hatched⟩, only', touches'⟩ := a.reportHatch_spec k h.plate h.offset x.cause
  generalize a.reportHatch k h.plate h.offset x.cause = b at hatched only' touches'
  obtain ⟨⟨m, marked⟩, only'', touches''⟩ := b.reportMark_spec k h.plate h.offset
  generalize b.reportMark k h.plate h.offset = c at marked only'' touches''
  refine ⟨(only'' .plates (by simp)).trans ((only' .plates (by simp)).trans plates), ⟨d, m, ?_⟩,
    only.trans ((only'.trans only'').mono (by simp)), touches.trans (touches'.trans touches'')⟩
  rw [Vector.get_of_eq_set channels, channels, Vector.set_set] at hatched
  rw [Vector.get_of_eq_set hatched, hatched, Vector.set_set] at marked
  exact marked

end Part

theorem State.composeBlock_live {s : State} {k : Fin 2} {h : InHand} (up : s.resetn = true)
    (held : s.part.channels[k].inHand = some h) (prepared : h.prepared = true) (live : h.live = true) :
    exec (.blockComposition k) s = .next
      { s with part := s.part.accountBlock k h (s.part.compose k h s.tiles)
               xfers := settleBlock s.xfers k (s.part.compose k h s.tiles).bytes } := by
  rw [exec_blockComposition, whenUp_up up, State.composeBlock, held]
  dsimp only
  rw [if_pos prepared, Part.serveBlock]
  dsimp only
  rw [if_pos live]

/-- Settles O36. -/
theorem blockIsComposed : Obligations.BlockIsComposed := by
  intro k s h up held prepared live more x
  have run := State.composeBlock_live up held prepared live
  have more : h.offset + 64 ≠ h.copy.rasterBytes := more
  rw [Part.accountBlock_eq, if_neg more, show s.part.compose k h s.tiles = x from rfl] at run
  clear_value x
  obtain ⟨plates, ⟨d, m, channels⟩, only, touches⟩ := s.part.accounted_spec k h x
  have own := Vector.get_of_eq_set channels
  refine ⟨_, run, rfl, by rw [own], by rw [own]; rfl, by rw [own]; rfl, by rw [own]; rfl, by rw [own]; rfl,
    plates.trans ?_, fun j other => by rw [channels]; exact Vector.set_other other,
    State.partXfers_congr only.eq_pick, touches.kept⟩
  rw [Part.accountedPlate, Summary.account]
  simp only [beq_iff_eq]
  rfl

end Sys2Proof.Machine
end

section
/-! SUPPORT. The completion of a band's open (R55, R59). -/

namespace Sys2Proof.Machine

namespace OpenBand

variable {width lineCount : Nat} {payload : List Byte}

/-- The open band `c` is of the band, the captured copy and the interrupted mark of `b`; decoding changes the rest. -/
def SameOpen (b c : OpenBand) : Prop := c.band = b.band ∧ c.cap = b.cap ∧ c.interrupted = b.interrupted

theorem SameOpen.trans {a b c : OpenBand} (h : a.SameOpen b) (g : b.SameOpen c) : a.SameOpen c :=
  ⟨g.1.trans h.1, g.2.1.trans h.2.1, g.2.2.trans h.2.2⟩

theorem readCode_sameOpen (b : OpenBand) (len : Nat) (c : Byte) (rest : List Byte) :
    b.SameOpen (b.readCode width lineCount len c rest) := by
  unfold OpenBand.readCode
  dsimp only
  repeat' split
  all_goals exact ⟨rfl, rfl, rfl⟩

theorem nextLine_sameOpen (b : OpenBand) : b.SameOpen (b.nextLine width lineCount payload) := by
  unfold OpenBand.nextLine
  split
  · exact ⟨rfl, rfl, rfl⟩
  · split
    · exact ⟨rfl, rfl, rfl⟩
    · split
      · exact ⟨rfl, rfl, rfl⟩
      · split
        · exact ⟨rfl, rfl, rfl⟩
        · exact b.readCode_sameOpen _ _ _

theorem forward_sameOpen : ∀ (n : Nat) (b : OpenBand), b.SameOpen (b.forward width lineCount payload n)
  | 0, _ => ⟨rfl, rfl, rfl⟩
  | n + 1, b => b.nextLine_sameOpen.trans (forward_sameOpen n _)

/-- A request for a line keeps the open it decodes from (R59). -/
theorem seek_sameOpen (b : OpenBand) (j : Nat) : b.SameOpen (b.seek width lineCount payload j) := by
  have again : b.SameOpen (b.restart.forward width lineCount payload (j + 1)) :=
    forward_sameOpen (j + 1) b.restart
  unfold OpenBand.seek
  split
  · exact ⟨rfl, rfl, rfl⟩
  · split
    · exact again
    · split
      · exact ⟨rfl, rfl, rfl⟩
      · split
        · exact forward_sameOpen _ b
        · exact again

end OpenBand

/-- A request answered from an open band holds the open it decodes from (R59, R62). -/
theorem Cursor.decode_spec (c : Cursor) (mem : Memory) (cells : List Host.Cell) (b : OpenBand) (it : PrepItem) :
    b.SameOpen (c.decode mem cells b it).1
      ∧ ((c.decode mem cells b it).1.broken = true → (c.decode mem cells b it).2 = .broken)
      ∧ ((c.decode mem cells b it).1.broken = false →
        (c.decode mem cells b it).2 = .data (clipSpans (c.decode mem cells b it).1.spans it.low it.high)) := by
  have same := b.seek_sameOpen (width := c.geom.width) (lineCount := c.geom.lineCount b.band)
    (payload := mem.payload cells b.cap.loc) (it.line - b.band.val * c.geom.bandHeight)
  unfold Cursor.decode
  dsimp only
  generalize b.seek _ _ _ _ = b' at same
  exact ⟨same, fun broken => if_pos broken, fun whole => if_neg (by rw [whole]; exact Bool.false_ne_true)⟩

/-- A band's open whose re-read shows the captured CRC (R55). -/
theorem Part.completeOpen_opened {p : Part} {k : Fin 2} {c : Cursor} {h : InHand} {it : PrepItem} {o : Opening}
    {cells : List Host.Cell} (whole : o.interrupted = false)
    (reread : crc32 (p.mem.payload cells o.cap.loc) = o.cap.crc) :
    p.completeOpen k c h it .band o cells
      = p.ownRead.setChannel k
          { p.channels[k] with
            inHand := some (h.setItem { it with
              spans := (c.decode p.mem cells { band := it.band, cap := o.cap } it).2 })
            cursors := setCursor p.channels[k].cursors { c with
              opening := none, band := some (c.decode p.mem cells { band := it.band, cap := o.cap } it).1 } } := by
  have outcome : p.openOutcome c o cells = .opened := by
    unfold Part.openOutcome
    dsimp only
    rw [whole, if_neg Bool.false_ne_true, if_pos reread]
  unfold Part.completeOpen
  dsimp only
  rw [outcome]
  rfl

/-- Settles O35. -/
theorem openEndsWell : Obligations.OpenEndsWell := by
  intro k i cells s h c it o up found whole reread
  have run : exec (.openComplete k i .band cells) s
      = .next { s with part := s.part.completeOpen k c h it .band o cells } := by
    rw [exec_openComplete, onPart_up up, Part.finishOpen, found]
  rw [Part.completeOpen_opened whole reread] at run
  obtain ⟨⟨band, cap, interrupted⟩, broken, spans⟩ :=
    c.decode_spec s.part.mem cells { band := it.band, cap := o.cap } it
  generalize c.decode s.part.mem cells { band := it.band, cap := o.cap } it = d at run band cap interrupted broken spans
  exact ⟨_, d.1, d.2, run, rfl, rfl, band, cap, interrupted, broken, spans⟩

end Sys2Proof.Machine
end

section
/-! SUPPORT. The composition of a block (R138 to R143). -/

namespace Sys2Proof.Machine

/-! ## The packing of pixels (R142) -/

theorem packPixels_byte (a b c d e f g h : Bool) (i : Nat) (small : i < 8) :
    (BitVec.ofNat 8 (128 * a.toNat + 64 * b.toNat + 32 * c.toNat + 16 * d.toNat + 8 * e.toNat + 4 * f.toNat
      + 2 * g.toNat + h.toNat)).getLsbD (7 - i) = [a, b, c, d, e, f, g, h].getD i false := by
  have all : ∀ i : Fin 8, (BitVec.ofNat 8 (128 * a.toNat + 64 * b.toNat + 32 * c.toNat + 16 * d.toNat + 8 * e.toNat
      + 4 * f.toNat + 2 * g.toNat + h.toNat)).getLsbD (7 - i) = [a, b, c, d, e, f, g, h].getD i false := by
    revert a b c d e f g h
    decide
  exact all ⟨i, small⟩

/-- Eight pixels to a byte, the first in the most significant bit. -/
theorem packPixels_spec : ∀ (m : Nat) (l : List Bool), l.length = 8 * m →
    (packPixels l).length = m
      ∧ ∀ i, i < 8 * m → ((packPixels l).getD (i / 8) 0).getLsbD (7 - i % 8) = l.getD i false
  | 0, l, length => by
    rw [List.length_eq_zero_iff.mp length]
    exact ⟨rfl, fun i h => absurd h (by omega)⟩
  | m + 1, a :: b :: c :: d :: e :: f :: g :: h :: rest, length => by
    simp only [List.length_cons] at length
    obtain ⟨count, bits⟩ := packPixels_spec m rest (by omega)
    refine ⟨congrArg (· + 1) count, fun i inside => ?_⟩
    by_cases first : i < 8
    · have div : i / 8 = 0 := by omega
      have mod : i % 8 = i := by omega
      rw [div, mod]
      refine (packPixels_byte a b c d e f g h i first).trans ?_
      exact (List.getD_append [a, b, c, d, e, f, g, h] rest false i first).symm
    · have div : i / 8 = (i - 8) / 8 + 1 := by omega
      have mod : i % 8 = (i - 8) % 8 := by omega
      rw [div, mod]
      refine (bits (i - 8) (by omega)).trans ?_
      exact (List.getD_append_right [a, b, c, d, e, f, g, h] rest false i (by simpa using first)).symm

theorem Part.compose_bytes (p : Part) (k : Fin 2) (h : InHand) (t : TileMemory) :
    (p.compose k h t).bytes.length = 64
      ∧ ∀ i, i < 512 →
        ((p.compose k h t).bytes.getD (i / 8) 0).getLsbD (7 - i % 8)
          = (pixel h.copy ((p.beginComposition k h).sources p.channels[k].cursors) p.sets[h.copy.screenSet] t
              (512 * h.copy.columnAt h.offset + i) (h.copy.lineAt h.offset)).on := by
  unfold Part.compose
  dsimp only
  generalize pixel h.copy _ _ _ = f
  obtain ⟨length, bits⟩ := packPixels_spec 64 (((List.range 512).map fun i =>
    f (512 * h.copy.columnAt h.offset + i) (h.copy.lineAt h.offset)).map fun x => x.on) (by simp)
  refine ⟨length, fun i inside => (bits i inside).trans ?_⟩
  simp [List.getD_eq_getElem?_getD, inside]

/-! ## The states that govern a block (R66, R138) -/

section
variable {p : Part} {k : Fin 2} {h : InHand} {c : Cursor} {it : PrepItem}

/-- The snapshot of a block whose slots have not been freed since preparation shows the states of now. -/
theorem Part.beginComposition_snapshot_mem (fresh : h.live = true ∨ (h.stage = .preparation ∧ p.allocated c.ref = true))
    (item : it ∈ h.items) (cursor : p.channels[k].cursors.find? (fun y => y.placement == it.placement) = some c) :
    p.snapshotOf c it ∈ (p.beginComposition k h).snapshot := by
  have now : p.snapshotOf c it ∈ p.snapshot p.channels[k].cursors h := by
    refine List.mem_filterMap.mpr ⟨it, item, ?_⟩
    rw [cursor]
    rfl
  unfold Part.beginComposition
  dsimp only
  cases live : h.live with
  | true => exact now
  | false =>
    obtain ⟨stage, allocated⟩ := fresh.resolve_left (by rw [live]; exact Bool.false_ne_true)
    rw [if_neg Bool.false_ne_true, stage]
    refine List.mem_map.mpr ⟨_, now, if_pos ?_⟩
    exact allocated

theorem PlacementSnapshot.region_of_mem {r : Fin 16} (h : r ∈ it.regions.map fun x => x.region) :
    (p.snapshotOf c it).region r = (p.entryAt c.ref (.tone r)).state := by
  have lookup : ∀ l : List RegionNeed, r ∈ l.map (fun x => x.region) →
      (l.map fun x => (x.region, (p.entryAt c.ref (.tone x.region)).state)).lookup r
        = some (p.entryAt c.ref (.tone r)).state := by
    intro l
    induction l with
    | nil => exact fun h => absurd h (List.not_mem_nil)
    | cons x l ih =>
      intro h
      rw [List.map_cons, List.lookup_cons]
      by_cases same : r = x.region
      · rw [same, beq_self_eq_true]
      · have rest := (List.mem_cons.mp h).resolve_left same
        rw [beq_false_of_ne same]
        exact ih rest
  rw [PlacementSnapshot.region]
  exact congrArg (·.getD .absent) (lookup it.regions h)

theorem Answer.governs_found {α : Type} {a : Answer α} {x st : EntryState} (h : a = .found x) : a.governs st = x := by
  rw [h]
  rfl

theorem Answer.governs_other {α : Type} {a : Answer α} {st : EntryState} (h : ∀ x, a ≠ .found x) :
    a.governs st = st := by
  cases a with
  | found x => exact absurd rfl (h x)
  | waiting => rfl
  | data _ => rfl
  | broken => rfl

/-- The source of a resolved placement whose states are those of now. -/
theorem Part.sources_mem (fresh : h.live = true ∨ (h.stage = .preparation ∧ p.allocated c.ref = true))
    (item : h.items.find? (fun y => y.placement == it.placement) = some it)
    (cursor : p.channels[k].cursors.find? (fun y => y.placement == it.placement) = some c) :
    (p.snapshotOf c it).source c it ∈ (p.beginComposition k h).sources p.channels[k].cursors := by
  refine List.mem_filterMap.mpr
    ⟨_, p.beginComposition_snapshot_mem fresh (List.mem_of_find?_eq_some item) cursor, ?_⟩
  have items : (p.beginComposition k h).items.find? (fun y => y.placement == (p.snapshotOf c it).placement) = some it :=
    item
  have cursor' : p.channels[k].cursors.find? (fun y => y.placement == (p.snapshotOf c it).placement) = some c := cursor
  rw [cursor', items]

end

/-! ## The terms of a pixel (R140 to R143) -/

/-- A term inks where `on` says, with this cause. -/
def Term.Means (t : Term) (x y : Nat) (on : Prop) (cause : Option HatchCause) : Prop :=
  (t.inks x y = true ↔ on) ∧ t.cause = cause

theorem Term.hatched_means {x y : Nat} {on : Prop} {c : HatchCause} (hatched : on ↔ (x + y) % 32 < 4) :
    (Term.hatched c).Means x y on (some c) := ⟨(hatch_iff x y).trans hatched.symm, rfl⟩

section
variable {a : Source} {px x y : Nat} {on : Prop}

theorem Source.lineArt_good {spans : List (Nat × Nat)} (band : a.band = .good) (data : a.item.spans = .data spans)
    (line : on ↔ ∃ p ∈ spans, p.1 ≤ px ∧ px < p.2) : (a.lineArt px).Means x y on none := by
  unfold Source.lineArt
  rw [band, data]
  refine ⟨?_, rfl⟩
  rw [line]
  simp [Term.inks]

theorem Source.lineArt_bad (bad : a.band ≠ .good ∨ a.item.spans = .broken) (line : on ↔ (x + y) % 32 < 4) :
    (a.lineArt px).Means x y on (some (a.cause (.band a.item.band) a.band)) := by
  have hatched : a.lineArt px = .hatched (a.cause (.band a.item.band) a.band) := by
    unfold Source.lineArt
    split
    · rename_i band data
      rcases bad with other | broken
      · exact absurd band other
      · exact nomatch broken.symm.trans data
    · rfl
  rw [hatched]
  exact Term.hatched_means line

/-- A page column on the line of a source lies in a needed region (R64). -/
def Source.inRegion (a : Source) (px : Nat) (u : RegionNeed × EntryState) : Prop :=
  (a.cursor.geom.regions[u.1.region]).x ≤ px
    ∧ px < (a.cursor.geom.regions[u.1.region]).x + (a.cursor.geom.regions[u.1.region]).w
    ∧ (a.cursor.geom.regions[u.1.region]).y ≤ a.item.line
    ∧ a.item.line < (a.cursor.geom.regions[u.1.region]).y + (a.cursor.geom.regions[u.1.region]).h

theorem Source.contains_iff (u : RegionNeed × EntryState) :
    (a.cursor.geom.regions[u.1.region]).contains px a.item.line = true ↔ a.inRegion px u := by
  simp [Descriptor.contains, Source.inRegion, and_assoc]

theorem Source.winner_none (none : ∀ u ∈ a.regions, ¬ a.inRegion px u) : a.winner px = Option.none := by
  refine List.find?_eq_none.mpr fun u hu => ?_
  rw [Source.contains_iff]
  exact none u (List.mem_reverse.mp hu)

/-- The region of the highest index wins (R73). -/
theorem Source.winner_highest {u : RegionNeed × EntryState}
    (sorted : a.regions.Pairwise fun u v => u.1.region < v.1.region) (mem : u ∈ a.regions) (inside : a.inRegion px u)
    (highest : ∀ v ∈ a.regions, a.inRegion px v → v.1.region ≤ u.1.region) : a.winner px = some u := by
  have descending := List.pairwise_reverse.mpr sorted
  cases found : a.winner px with
  | none =>
    have := List.find?_eq_none.mp found u (List.mem_reverse.mpr mem)
    rw [Source.contains_iff] at this
    exact absurd inside this
  | some w =>
    obtain ⟨holds, before, after, list, others⟩ := List.find?_eq_some_iff_append.mp found
    rw [Source.contains_iff] at holds
    have wmem : w ∈ a.regions := List.mem_reverse.mp (by rw [list]; simp)
    have le := highest w wmem holds
    have umem := List.mem_reverse.mpr mem
    rw [list] at umem descending
    rcases List.mem_append.mp umem with early | late
    · have := others u early
      rw [Bool.not_eq_true', ← Bool.not_eq_true, Source.contains_iff] at this
      exact absurd inside this
    · rcases List.mem_cons.mp late with same | behind
      · rw [same]
      · have below := (List.pairwise_cons.mp (List.pairwise_append.mp descending).2.1).1 u behind
        exact absurd below (not_lt.mpr le)

variable {set : ScreenSet} {t : TileMemory}

theorem Source.dotTerm_none (none : a.winner px = Option.none) (dot : ¬ on) :
    (a.dotTerm set t px x y).Means x y on Option.none := by
  unfold Source.dotTerm
  rw [none]
  exact ⟨by simpa [Term.inks] using dot, rfl⟩

theorem Source.dotTerm_good {u : RegionNeed × EntryState} {samples : Samples} (wins : a.winner px = some u)
    (good : u.2 = .good) (data : u.1.answer = .data samples)
    (dot : on ↔ (t.read (set.tileEntry x y)).toNat
      ≤ set.table.getD (samples.at_ a.cursor.geom.regions[u.1.region] px) 0) :
    (a.dotTerm set t px x y).Means x y on none := by
  obtain ⟨r, st⟩ := u
  dsimp only at good data dot
  unfold Source.dotTerm
  rw [wins, good]
  dsimp only
  rw [data]
  refine ⟨?_, rfl⟩
  rw [dot]
  exact decide_eq_true_iff

theorem Source.dotTerm_bad {u : RegionNeed × EntryState} (wins : a.winner px = some u) (bad : u.2 ≠ .good)
    (dot : on ↔ (x + y) % 32 < 4) :
    (a.dotTerm set t px x y).Means x y on (some (a.cause (.tone u.1.region) u.2)) := by
  obtain ⟨r, st⟩ := u
  have hatched : a.dotTerm set t px x y = .hatched (a.cause (.tone r.region) st) := by
    unfold Source.dotTerm
    rw [wins]
    dsimp only
    split
    · exact absurd rfl bad
    · rfl
  rw [hatched]
  exact Term.hatched_means dot

end

/-! ## A pixel (R139, R142) -/

section
variable {copy : PlateRecord} {sources : List Source} {set : ScreenSet} {t : TileMemory} {x y : Nat}

theorem pixel_outside (outside : ∀ q ∈ copy.numberedPlacements, q.2.holds x y = false) :
    pixel copy sources set t x y = { on := false, cause := none } := by
  have none : copy.numberedPlacements.find? (fun q => q.2.holds x y) = Option.none :=
    List.find?_eq_none.mpr fun q hq => by rw [outside q hq]; exact Bool.false_ne_true
  unfold pixel
  rw [none]

variable {q : Fin 4 × Placement} (frame : copy.numberedPlacements.find? (fun q => q.2.holds x y) = some q)
include frame

theorem pixel_unresolved (unresolved : ∀ a ∈ sources, a.cursor.placement ≠ q.1) :
    pixel copy sources set t x y = { on := hatch x y, cause := some (.unresolved q.1) } := by
  obtain ⟨k, q⟩ := q
  have none : sources.find? (fun a => a.cursor.placement == k) = Option.none :=
    List.find?_eq_none.mpr fun a ha => by simpa using unresolved a ha
  unfold pixel
  rw [frame]
  dsimp only
  rw [none]

theorem pixel_resolved {a : Source} (source : sources.find? (fun a => a.cursor.placement == q.1) = some a)
    {line dot : Prop} {lineCause dotCause : Option HatchCause}
    (lineArt : (a.lineArt (q.2.pageColumn x)).Means x y line lineCause)
    (dotTerm : (a.dotTerm set t (q.2.pageColumn x) x y).Means x y dot dotCause) :
    ((pixel copy sources set t x y).on = true ↔ line ∨ dot)
      ∧ (pixel copy sources set t x y).cause = (if lineCause = none then dotCause else lineCause) := by
  obtain ⟨k, q⟩ := q
  obtain ⟨inks, lineNames⟩ := lineArt
  obtain ⟨dots, dotNames⟩ := dotTerm
  unfold pixel
  rw [frame]
  dsimp only
  rw [source]
  dsimp only at inks dots lineNames dotNames ⊢
  rw [lineNames, dotNames, Bool.or_eq_true, inks, dots]
  refine ⟨Iff.rfl, ?_⟩
  cases lineCause with
  | none => rfl
  | some c => rfl

end

/-- Settles O38. -/
theorem blockPacksItsPixels : Obligations.BlockPacksItsPixels := by
  refine ⟨fun k s h => s.part.compose_bytes k h s.tiles, fun k s h c it fresh item cursor => ?states,
    fun copy sources set t x y => ⟨pixel_outside, fun q frame unresolved => ?unresolved,
      fun q a frame source sorted => ?resolved⟩⟩
  case states =>
    refine ⟨_, Part.sources_mem fresh item cursor, rfl, rfl, fun st => Answer.governs_found,
      Answer.governs_other, ?_, fun _ r hr => ?_⟩
    · rw [PlacementSnapshot.source, List.map_map]
      exact List.map_id it.regions
    · obtain ⟨need, mem, rfl⟩ := List.mem_map.mp hr
      have region := PlacementSnapshot.region_of_mem (p := s.part) (c := c) (it := it) (r := need.region)
        (List.mem_map.mpr ⟨need, mem, rfl⟩)
      exact ⟨fun st => Answer.governs_found, fun other => (Answer.governs_other other).trans region⟩
  case unresolved =>
    rw [pixel_unresolved frame unresolved, hatch]
  case resolved =>
    intro px hatched cause holds wins threshold line dot lineCause dotCause lineIs dotIs
    have placement : a.cursor.placement = q.1 := by
      simpa using List.find?_some source
    have names (ref : EntryRef) (st : EntryState) : cause ref st = a.cause ref st := by
      rw [Source.cause, placement]
    have lineArt : (a.lineArt px).Means x y line lineCause := by
      rcases lineIs with ⟨spans, good, data, rfl, on⟩ | ⟨bad, rfl, on⟩
      · exact Source.lineArt_good good data on
      · rw [names]
        exact Source.lineArt_bad bad on
    have dotTerm : (a.dotTerm set t px x y).Means x y dot dotCause := by
      rcases dotIs with ⟨none, rfl, off⟩ | ⟨u, samples, ⟨mem, inside, highest⟩, good, data, rfl, on⟩
        | ⟨u, ⟨mem, inside, highest⟩, bad, rfl, on⟩
      · exact Source.dotTerm_none (Source.winner_none none) off
      · exact Source.dotTerm_good (Source.winner_highest sorted mem inside highest) good data on
      · rw [names]
        exact Source.dotTerm_bad (Source.winner_highest sorted mem inside highest) bad on
    exact pixel_resolved frame source lineArt dotTerm

end Sys2Proof.Machine
end

section
/-! SUPPORT. The filing of bands (R31, R32, R40): which way a copy goes. -/

namespace Sys2Proof.Machine

section
variable {p : Part} {k : Fin 4} {before after : List Parcel} {c : Parcel}

/-! ## The next parcel of a stream (R12) -/

theorem Part.nextIs.parcel (next : p.nextIs k before c after) : p.nextParcel k = some c := by
  obtain ⟨transit, others, own⟩ := next
  rw [Part.nextParcel, transit, List.find?_append,
    List.find?_eq_none.mpr fun x hx => by simpa using others x hx, List.find?_cons_of_pos (by simpa using own)]
  rfl

theorem Part.nextIs.left (next : p.nextIs k before c after) : p.leaveTransit k = p.setTransit (before ++ after) := by
  obtain ⟨transit, others, own⟩ := next
  rw [Part.leaveTransit, transit, List.eraseP_append_right _ fun x hx => by simpa using others x hx,
    List.eraseP_cons_of_pos (by simpa using own)]

end

section
variable {s : State} {k : Fin 4} {before after : List Parcel} {c : Parcel}

/-- A BAND or TONE that is next is filed (R31). -/
theorem State.files_bandTone (up : s.resetn = true) (next : s.part.nextIs k before c after) (kind : c.kind ≠ .head) :
    exec (.fileBandTone k) s = .next { s with part := (s.part.setTransit (before ++ after)).fileBandTone c } := by
  rw [exec_fileBandTone, onPart_up up, Part.fileNextBandTone, next.parcel]
  dsimp only
  rw [if_neg kind, next.left]

/-- A HEAD that is next is filed (R27). -/
theorem State.files_head (up : s.resetn = true) (next : s.part.nextIs k before c after) (kind : c.kind = .head) :
    exec (.fileHead k) s = .next { s with part := (s.part.setTransit (before ++ after)).fileHead c } := by
  rw [exec_fileHead, onPart_up up, Part.fileNextHead, next.parcel]
  dsimp only
  rw [if_pos kind, next.left]

end

section
variable {p : Part} {c : Parcel}

/-! ## The slot of a page version (R26, R27) -/

theorem Part.findSlot_none_of {test : Slot → Bool} (none : ∀ n : Fin 512, test p.slots[n] = false) :
    p.findSlot test = Option.none := findNumbered_none_of none

theorem Part.newerThanAll.outdated {id : Identity} {version : Nat} (newer : p.newerThanAll id version) :
    p.outdated id version = false := by
  rw [Part.outdated, Part.findSlot_none_of]
  · rfl
  · intro n
    by_contra found
    simp only [Bool.not_eq_false, Bool.and_eq_true, beq_iff_eq, decide_eq_true_eq] at found
    obtain ⟨⟨inUse, same⟩, above⟩ := found
    exact absurd (newer n inUse same) (Nat.not_lt.mpr above)

theorem Part.newerThanAll.versionSlot {id : Identity} {version : Nat} (newer : p.newerThanAll id version) :
    p.versionSlot id version = none := by
  refine Part.findSlot_none_of fun n => ?_
  by_contra found
  simp only [Bool.not_eq_false, Bool.and_eq_true, beq_iff_eq] at found
  obtain ⟨⟨inUse, same⟩, equal⟩ := found
  exact absurd (newer n inUse same) (by rw [equal]; exact Nat.lt_irrefl _)

/-! ## The entry and the judgement of a BAND (R31, R32) -/

theorem Geometry.entryRef?_band {g : Geometry} {index : Nat} (b : Fin 64) (is : index = b.val)
    (inside : b.val < g.bandCount) : g.entryRef? .band index = some (.band b) := by
  subst is
  rw [Geometry.entryRef?, dif_pos b.isLt, if_pos inside]

/-- A judged BAND copy as it is filed (R32). -/
def Parcel.filing (c : Parcel) (j : Judgement) : Copy :=
  { loc := c.loc, storedCrc := c.header.crc, tick := c.tick, stream := c.stream, judged := j, found := .filing }

section
variable {n : Fin 512} {b : Fin 64} (kind : c.kind = .band) (index : c.header.index = b.val)
  (inside : b.val < p.slots[n].geom.bandCount)
include kind index inside

theorem Part.fileInto_judged {j : Judgement}
    (judged : judgeCopy c p.slots[n] (.band b) { slot := n, alloc := p.slots[n].alloc } = some j) :
    p.fileInto c n = p.fileCopy n (.band b) (c.filing j) := by
  unfold Part.fileInto
  dsimp only
  rw [kind, Geometry.entryRef?_band b index inside]
  dsimp only
  rw [judged]
  rfl

theorem Part.fileInto_late (late : judgeCopy c p.slots[n] (.band b) { slot := n, alloc := p.slots[n].alloc } = none) :
    p.fileInto c n = p.lateValidation c n := by
  unfold Part.fileInto
  dsimp only
  rw [kind, Geometry.entryRef?_band b index inside]
  dsimp only
  rw [late]

end

variable {x : Slot} {b : Fin 64} {here : SlotRef}

theorem judgeCopy_good (unmarked : c.mark = none) (crc : c.computedCrc = c.header.crc) (own : c.slotRef = some here)
    (verdict : c.verdict = .good) : judgeCopy c x (.band b) here = some .good := by
  unfold judgeCopy
  rw [unmarked]
  dsimp only
  rw [if_neg (not_not.mpr crc), if_pos own, verdict]

theorem judgeCopy_crcBad (unmarked : c.mark = none) (crc : c.computedCrc ≠ c.header.crc) :
    judgeCopy c x (.band b) here = some (.crcBad c.computedCrc) := by
  unfold judgeCopy
  rw [unmarked]
  dsimp only
  rw [if_pos crc]

theorem judgeCopy_late (unmarked : c.mark = none) (crc : c.computedCrc = c.header.crc)
    (late : c.slotRef ≠ some here ∨ c.verdict = .notRun) : judgeCopy c x (.band b) here = none := by
  unfold judgeCopy
  rw [unmarked]
  dsimp only
  rw [if_neg (not_not.mpr crc)]
  rcases late with other | notRun
  · rw [if_neg other]
  · rw [notRun]
    exact ite_self _

/-! ## The orphan queue (R40) -/

theorem Orphan.sameKey_none {o : Orphan} {queue : List Orphan}
    (fresh : ∀ x ∈ queue, ¬ (x.id = o.id ∧ x.version = o.version ∧ x.kind = o.kind ∧ x.index = o.index)) :
    ∀ x ∈ queue, ¬ o.sameKey x = true := by
  intro x hx same
  simp only [Orphan.sameKey, Bool.and_eq_true, beq_iff_eq] at same
  obtain ⟨⟨⟨id, version⟩, kind⟩, index⟩ := same
  exact fresh x hx ⟨id.symm, version.symm, kind.symm, index.symm⟩

theorem Part.enterOrphan_room {o : Orphan} (room : p.orphans.length < 64) :
    p.enterOrphan o = p.setOrphans (p.orphans ++ [o]) := if_pos room

theorem Part.orphanCandidate_fresh (kind : c.kind = .band) (index : c.header.index < 64) (unmarked : c.mark = none)
    (crc : c.computedCrc = c.header.crc) (room : p.orphans.length < 64)
    (fresh : ∀ x ∈ p.orphans, ¬ (c.orphan none p.params.orphanMs).sameKey x = true) :
    p.orphanCandidate c = p.setOrphans (p.orphans ++ [c.orphan none p.params.orphanMs]) := by
  have inRange : ¬ c.kind.indexLimit ≤ c.header.index := by
    rw [kind]
    exact Nat.not_le.mpr index
  unfold Part.orphanCandidate
  dsimp only
  rw [if_neg inRange, unmarked, if_neg (by decide), if_neg (not_not.mpr crc), List.find?_eq_none.mpr fresh]
  exact Part.enterOrphan_room room

theorem Part.lateValidation_fresh {n : Fin 512} (room : p.orphans.length < 64)
    (fresh : ∀ x ∈ p.orphans,
      ¬ (c.orphan (some { ref := { slot := n, alloc := p.slots[n].alloc } }) p.params.orphanMs).sameKey x = true) :
    p.lateValidation c n = p.setOrphans
      (p.orphans ++ [c.orphan (some { ref := { slot := n, alloc := p.slots[n].alloc } }) p.params.orphanMs]) := by
  unfold Part.lateValidation
  dsimp only
  rw [if_neg]
  · exact Part.enterOrphan_room room
  · rw [List.any_eq_true]
    exact fun ⟨x, hx, same⟩ => fresh x hx same

end

/-- Settles O30. -/
theorem orphanWaitsForItsHead : Obligations.OrphanWaitsForItsHead := by
  intro s k before after c up next kind unmarked crc fresh room entry
  have run := State.files_bandTone up next (by rw [kind]; decide)
  refine ⟨fun newer index => ?waits, fun n found index inside late => ?late⟩
  case waits =>
    have filed : (s.part.setTransit (before ++ after)).fileBandTone c
        = (s.part.setTransit (before ++ after)).orphanCandidate c := by
      have none : (s.part.setTransit (before ++ after)).versionSlot c.header.id c.header.version = none :=
        newer.versionSlot
      have current : (s.part.setTransit (before ++ after)).outdated c.header.id c.header.version = false :=
        newer.outdated
      rw [Part.fileBandTone, none, Part.fileBandToneIn, current, if_neg Bool.false_ne_true]
    rw [run, filed, Part.orphanCandidate_fresh (p := s.part.setTransit (before ++ after)) kind index unmarked crc room
      (Orphan.sameKey_none fresh)]
    rfl
  case late =>
    have filed : (s.part.setTransit (before ++ after)).fileBandTone c
        = (s.part.setTransit (before ++ after)).fileInto c n := by
      have some : (s.part.setTransit (before ++ after)).versionSlot c.header.id c.header.version = some n := found
      rw [Part.fileBandTone, some, Part.fileBandToneIn]
    have judged : judgeCopy c (s.part.setTransit (before ++ after)).slots[n] (.band ⟨c.header.index, index⟩)
        { slot := n, alloc := (s.part.setTransit (before ++ after)).slots[n].alloc } = none :=
      judgeCopy_late unmarked crc late
    rw [run, filed, Part.fileInto_late (p := s.part.setTransit (before ++ after)) kind rfl inside judged,
      Part.lateValidation_fresh (p := s.part.setTransit (before ++ after)) room (Orphan.sameKey_none fresh)]
    rfl

end Sys2Proof.Machine
end

section
/-! SUPPORT. A judged copy filed into a slot that stays FILLING (R33 to R37). -/

namespace Sys2Proof.Machine

/-! ## A report, then other own writes -/

theorem ringOffset_apart_mirrorRange (a : Word) (n : Fin 512) : ringOffset a + 64 ≤ (mirrorRange n).1 := by
  have small := Nat.mod_lt a.toNat (show 0 < Config.ringEntries by decide)
  simp only [ringOffset, mirrorRange, mirrorOffset, Config.offReportRing, Config.offMirror, Config.ringEntries] at *
  omega

/-- A report raised stays as it is under writes apart from its ring entry. -/
theorem Part.tells_keep {p a q : Part} {ranges : List (Nat × Nat)} {kind : ReportKind} {x : Subject}
    (told : p.tells a kind x) (cabase : a.cabase = p.cabase) (reports : q.reports = a.reports)
    (touches : a.Touches ranges q)
    (apart : ∀ r ∈ ranges, ringOffset p.reports.written + 64 ≤ r.1 ∨ r.1 + r.2 ≤ ringOffset p.reports.written) :
    p.tells q kind x := by
  obtain ⟨after, records⟩ := told
  refine ⟨reports.trans after, fun passes up room wf => ?_⟩
  have kept := touches.readBytes apart
  rw [Part.base_congr cabase] at kept
  exact kept.trans (records passes up room wf)

/-! ## Slots that are not whole (R35) -/

/-- A slot with an entry in use that is not GOOD. -/
theorem Slot.whole_of_band {x : Slot} {i : Fin 64} (inside : i.val < x.geom.bandCount)
    (bad : x.bands[i].state ≠ .good) : x.whole = false := by
  have mem : x.bands[i] ∈ x.entryList := by
    refine List.mem_append_left _ (List.mem_take_iff_getElem.mpr ⟨i.val, by simp [inside], ?_⟩)
    rw [Vector.getElem_toList]
    rfl
  unfold Slot.whole
  rw [Bool.and_eq_false_iff]
  refine Or.inr (List.all_eq_false.mpr ⟨_, mem, ?_⟩)
  rwa [beq_iff_eq]

theorem Slot.setBand_other {x : Slot} {b i : Fin 64} (other : i ≠ b) (e : Entry) :
    (x.setEntry (.band b) e).bands[i] = x.bands[i] := Vector.set_other other

/-- A slot that is not whole is FILLING with its gap timer restarted (R37). -/
def Slot.restarted (x : Slot) (deadline : Word) : Slot := { x with state := .filling, deadline := some deadline }

theorem Slot.form_setEntry (x : Slot) (n : Fin 512) (ref : EntryRef) (e : Entry) (change : Word) :
    ({ x.setEntry ref e with change := change } : Slot).form n = x.form n := by
  cases ref <;> rfl

namespace Part

section
variable {p : Part} {n : Fin 512}

theorem slotFollows_filling {was : Bool} (state : p.slots[n].state = .filling ∨ p.slots[n].state = .stalled)
    (part : p.slots[n].whole = false) :
    p.slotFollows n was = p.changeSlot n fun x => x.restarted p.gapDeadline := by
  have notWhole : ¬ p.slots[n].whole = true := by rw [part]; exact Bool.false_ne_true
  unfold slotFollows
  dsimp only
  rcases state with filling | stalled
  · rw [filling]
    dsimp only
    rw [if_neg notWhole]
    rfl
  · rw [stalled]
    dsimp only
    rw [if_neg notWhole]
    rfl

section
variable {ref : EntryRef} {c : Copy}

theorem applyCopy_enters (absent : (p.slots[n].entry ref).state = .absent) (good : c.judged = .good) :
    p.applyCopy n ref c = p.changeSlot n fun x => x.setEntry ref c.entry := by
  unfold applyCopy
  dsimp only
  rw [absent]
  dsimp only
  rw [good]

/-- BAND_REPAIRED (R33). -/
def repairedSubject (p : Part) (n : Fin 512) (ref : EntryRef) (c : Copy) : Subject :=
  .page { p.slots[n].form n with
    kind := ref.kindCode, index := ref.index, stream := c.stream.val, cause := (p.slots[n].entry ref).state.code
    a := (p.slots[n].entry ref).repeats, b := c.tick.toNat }

theorem applyCopy_repairs (failed : (p.slots[n].entry ref).state ≠ .absent) (bad : (p.slots[n].entry ref).state ≠ .good)
    (good : c.judged = .good) :
    p.applyCopy n ref c
      = (p.changeSlot n fun x => x.setEntry ref c.entry).raise .bandRepaired (p.repairedSubject n ref c) := by
  unfold applyCopy
  dsimp only
  split
  · exact absurd ‹_› bad
  · exact absurd ‹_› failed
  · rw [good]
    dsimp only
    rw [changeSlot_get, Slot.form_setEntry]
    rfl

end

/-- The slot after a copy has entered its band `b` and the gap timer has been restarted. -/
def filedSlot (p : Part) (n : Fin 512) (b : Fin 64) (e : Entry) : Slot :=
  { p.slots[n] with
    bands := p.slots[n].bands.set b e
    state := .filling
    deadline := some (p.tick + BitVec.ofNat 32 p.params.gapMs)
    change := p.slots[n].change + 1 + 1 }

/-- Two changes of a slot: the entry, then the slot's state with its timer. -/
theorem filedSlot_slots {a : Part} {b : Fin 64} {e : Entry}
    (slots : a.slots = (p.changeSlot n fun x => x.setEntry (.band b) e).slots) (tick : a.tick = p.tick)
    (params : a.params = p.params) :
    (a.changeSlot n fun x => x.restarted a.gapDeadline).slots = p.slots.set n (p.filedSlot n b e) := by
  rw [changeSlot_slots]
  show a.slots.set n _ = _
  have here : a.slots[n] = { p.slots[n].setEntry (.band b) e with change := p.slots[n].change + 1 } := by
    rw [slots, changeSlot_get]
  rw [here, slots, changeSlot_slots]
  show (p.slots.set n _).set n _ = _
  rw [Vector.set_set, gapDeadline, tick, params]
  rfl

/-- After a copy has entered a band, a band that is not GOOD keeps the slot from being whole (R35, R37). -/
theorem slotFollows_notWhole {a : Part} {b i : Fin 64} {e : Entry} {was : Bool}
    (state : p.slots[n].state = .filling ∨ p.slots[n].state = .stalled) (inside : i.val < p.slots[n].geom.bandCount)
    (bad : (p.slots[n].setEntry (.band b) e).bands[i].state ≠ .good)
    (slots : a.slots = (p.changeSlot n fun x => x.setEntry (.band b) e).slots) :
    a.slotFollows n was = a.changeSlot n fun x => x.restarted a.gapDeadline := by
  have here : a.slots[n] = { p.slots[n].setEntry (.band b) e with change := p.slots[n].change + 1 } := by
    rw [slots, changeSlot_get]
  refine slotFollows_filling ?_ ?_
  · rw [here]
    exact state
  · rw [here]
    exact Slot.whole_of_band (i := i) inside bad

section
variable {b other : Fin 64} {c : Copy} {was : Bool}
  (state : p.slots[n].state = .filling ∨ p.slots[n].state = .stalled)
  (differs : other ≠ b) (inside : other.val < p.slots[n].geom.bandCount)
  (bad : p.slots[n].bands[other].state ≠ .good)
include state differs inside bad

/-- After a copy has entered one band, another that is not GOOD keeps the slot from being whole (R35, R37). -/
theorem slotFollows_entered {a : Part} {e : Entry}
    (slots : a.slots = (p.changeSlot n fun x => x.setEntry (.band b) e).slots) :
    a.slotFollows n was = a.changeSlot n fun x => x.restarted a.gapDeadline := by
  refine slotFollows_notWhole state (b := b) (i := other) inside ?_ slots
  rw [Slot.setBand_other differs]
  exact bad

/-- A GOOD copy enters its ABSENT band (R33, R35, R37). -/
theorem fileCopy_enters (absent : (p.slots[n].entry (.band b)).state = .absent) (good : c.judged = .good) :
    (p.fileCopy n (.band b) c).slots = p.slots.set n (p.filedSlot n b c.entry)
      ∧ p.Only [.slots, .mem, .port] (p.fileCopy n (.band b) c)
      ∧ p.Touches [mirrorRange n] (p.fileCopy n (.band b) c) := by
  have only : p.Only [.slots, .mem, .port] (p.changeSlot n fun x => x.setEntry (.band b) c.entry) :=
    (Only.refl _ p).changeSlot
  have touches : p.Touches [mirrorRange n] (p.changeSlot n fun x => x.setEntry (.band b) c.entry) :=
    (Touches.refl _ p).changeSlot (by simp)
  have slots : (p.changeSlot n fun x => x.setEntry (.band b) c.entry).slots
    = (p.changeSlot n fun x => x.setEntry (.band b) c.entry).slots := rfl
  rw [fileCopy, applyCopy_enters absent good, slotFollows_entered state differs inside bad slots]
  exact ⟨filedSlot_slots slots (only .tick (by simp)) (only .params (by simp)), only.changeSlot,
    touches.changeSlot (by simp)⟩

/-- A GOOD copy takes the place of a failed band (R33, R35, R37). -/
theorem fileCopy_repairs (failed : (p.slots[n].entry (.band b)).state ≠ .absent)
    (notGood : (p.slots[n].entry (.band b)).state ≠ .good) (good : c.judged = .good) :
    (p.fileCopy n (.band b) c).slots = p.slots.set n (p.filedSlot n b c.entry)
      ∧ p.tells (p.fileCopy n (.band b) c) .bandRepaired (p.repairedSubject n (.band b) c)
      ∧ p.Only [.slots, .reports, .mem, .port] (p.fileCopy n (.band b) c)
      ∧ p.Touches (mirrorRange n :: p.reportRanges) (p.fileCopy n (.band b) c) := by
  have only : p.Only [.slots, .mem, .port] (p.changeSlot n fun x => x.setEntry (.band b) c.entry) :=
    (Only.refl _ p).changeSlot
  have touches : p.Touches (mirrorRange n :: p.reportRanges) (p.changeSlot n fun x => x.setEntry (.band b) c.entry) :=
    (Touches.refl _ p).changeSlot (by simp)
  rw [fileCopy, applyCopy_repairs failed notGood good]
  have slots := raise_slots (p.changeSlot n fun x => x.setEntry (.band b) c.entry) .bandRepaired
    (p.repairedSubject n (.band b) c)
  rw [slotFollows_entered state differs inside bad slots]
  have reports : (p.changeSlot n fun x => x.setEntry (.band b) c.entry).reports = p.reports := changeSlot_reports _ _ _
  have told := only.quiet.tells touches.wf ((p.changeSlot n fun x => x.setEntry (.band b) c.entry).raise_tells
    .bandRepaired (p.repairedSubject n (.band b) c))
  have only : p.Only [.slots, .reports, .mem, .port] ((p.changeSlot n fun x => x.setEntry (.band b) c.entry).raise
    .bandRepaired (p.repairedSubject n (.band b) c)) := (only.mono (by simp)).raise
  have touches : p.Touches (mirrorRange n :: p.reportRanges)
      ((p.changeSlot n fun x => x.setEntry (.band b) c.entry).raise .bandRepaired
        (p.repairedSubject n (.band b) c)) :=
    touches.raise (by rw [reports]; simp [reportRanges_eq]) (by simp [reportRanges_eq])
  generalize (p.changeSlot n fun x => x.setEntry (.band b) c.entry).raise .bandRepaired
    (p.repairedSubject n (.band b) c) = a at slots told only touches
  refine ⟨filedSlot_slots slots (only .tick (by simp)) (only .params (by simp)), ?_, only.changeSlot,
    touches.changeSlot (by simp)⟩
  refine tells_keep told touches.cabase (changeSlot_reports _ _ _)
    ((Touches.refl [mirrorRange n] a).changeSlot (by simp)) fun r hr => Or.inl ?_
  rw [List.mem_singleton.mp hr]
  exact ringOffset_apart_mirrorRange _ n

end

end

end Part

/-- Settles O28. -/
theorem goodBandIsFiled : Obligations.GoodBandIsFiled := by
  intro s k before after c n b other up next kind found state index inside differs inside' bad unmarked crc own
    verdict old filed
  have judged : judgeCopy c s.part.slots[n] (.band b) { slot := n, alloc := s.part.slots[n].alloc } = some .good :=
    judgeCopy_good unmarked crc own verdict
  have some : (s.part.setTransit (before ++ after)).versionSlot c.header.id c.header.version = some n := found
  have run := State.files_bandTone up next (by rw [kind]; decide)
  rw [Part.fileBandTone, some, Part.fileBandToneIn,
    Part.fileInto_judged (p := s.part.setTransit (before ++ after)) kind index inside judged] at run
  have transit : s.part.Only [.transit] (s.part.setTransit (before ++ after)) := (Part.Only.refl _ _).setTransit
  refine ⟨fun absent => ?enters, fun failed notGood => ?repairs⟩
  case enters =>
    obtain ⟨slots, only, touches⟩ := Part.fileCopy_enters (p := s.part.setTransit (before ++ after))
        (c := c.filing .good)
      state differs inside' bad absent rfl
    exact ⟨_, run, only .transit (by simp), slots,
      State.part_congr ((transit.mono (more := [.transit, .slots, .mem, .port]) (by simp)).trans
        (only.mono (by simp))).eq_pick, touches.kept⟩
  case repairs =>
    obtain ⟨slots, told, only, touches⟩ := Part.fileCopy_repairs (p := s.part.setTransit (before ++ after))
      (c := c.filing .good) state differs inside' bad failed notGood rfl
    exact ⟨_, run, only .transit (by simp), slots, transit.quiet.tells id told,
      State.part_congr ((transit.mono (more := [.transit, .slots, .reports, .mem, .port]) (by simp)).trans
        (only.mono (by simp))).eq_pick, touches.kept⟩

end Sys2Proof.Machine
end

section
/-! SUPPORT. Damage of an entry that newly takes a failure state (R34, R159 to R163). -/

namespace Sys2Proof.Machine

namespace Part

/-- The damage counter after one damage more (R159). -/
def damageCount (p : Part) (sep : Fin 4) : Nat := p.reports.damage[sep] + 1

/-- The report unit after one damage more (R159). -/
def damageCounted (p : Part) (sep : Fin 4) : ReportUnit :=
  { p.reports with damage := p.reports.damage.set sep (p.damageCount sep) }

/-- The new count has reached a multiple of the threshold (R160). -/
def atRate (p : Part) (sep : Fin 4) : Prop :=
  p.params.threshold ≠ 0 ∧ p.damageCount sep % p.params.threshold = 0

/-- BAND_DAMAGED (R162, R207). -/
def damageSubject (p : Part) (n : Fin 512) (ref : EntryRef) (d : DamageInfo) (count : Nat) : Subject :=
  .page { p.slots[n].form n with
    kind := ref.kindCode
    index := ref.index
    cause := (p.slots[n].entry ref).state.damageCause.code
    stream := match d.origin with
      | .stream k => k.val
      | .source _ => 0
    source := match d.origin with
      | .stream _ => 0
      | .source x => x
    flags := presence true (match d.origin with
      | .stream _ => false
      | .source _ => true) d.computed.isSome true
    a := packBytes d.found.code d.channel
    b := (p.slots[n].entry ref).storedCrc.toNat
    c := (d.computed.getD 0).toNat
    d := (p.slots[n].entry ref).tick.toNat
    addr := d.block
    e := count }

/-- DAMAGE_RATE (R160, R207). -/
def rateSubject (p : Part) (n : Fin 512) (ref : EntryRef) (count : Nat) : Subject :=
  .page { p.slots[n].form n with
    kind := ref.kindCode, index := ref.index, a := count, b := p.params.threshold }

theorem countDamage_room {p : Part} {sep : Fin 4} {i : Nat} (sepIs : sepIndex i = sep)
    (room : p.reports.damage[sep] < Config.max16) :
    p.countDamage i = (p.setReports (p.damageCounted sep)).headerWrite .damage := by
  subst sepIs
  exact if_pos room

/-- The reports after the damage has been counted and BAND_DAMAGED raised. -/
def damageTold (p : Part) (n : Fin 512) (ref : EntryRef) (d : DamageInfo) (sep : Fin 4) : ReportUnit :=
  { p with reports := p.damageCounted sep }.after .bandDamaged (p.damageSubject n ref d (p.damageCount sep))

section
variable {p : Part} {n : Fin 512} {ref : EntryRef} {d : DamageInfo} {sep : Fin 4}
  (sepIs : sepIndex p.slots[n].id.sep = sep) (room : p.reports.damage[sep] < Config.max16)
include room sepIs

theorem damaged_raises :
    (p.atRate sep →
      p.damaged n ref d = (((p.setReports (p.damageCounted sep)).headerWrite .damage).raise .bandDamaged
        (p.damageSubject n ref d (p.damageCount sep))).raise .damageRate (p.rateSubject n ref (p.damageCount sep)))
    ∧ (¬ p.atRate sep →
      p.damaged n ref d = ((p.setReports (p.damageCounted sep)).headerWrite .damage).raise .bandDamaged
        (p.damageSubject n ref d (p.damageCount sep))) := by
  subst sepIs
  have counted := countDamage_room rfl room
  have new : ((p.setReports (p.damageCounted
      (sepIndex p.slots[n].id.sep))).headerWrite .damage).reports.damage[sepIndex p.slots[n].id.sep]
      = p.damageCount (sepIndex p.slots[n].id.sep) := by
    rw [headerWrite_reports]
    exact Vector.set_same
  have params : ∀ x y, (((p.setReports
      (p.damageCounted (sepIndex p.slots[n].id.sep))).headerWrite .damage).raise x y).params = p.params :=
    fun x y => (raise_params _ _ _).trans (headerWrite_params _ _)
  unfold damaged
  dsimp only
  rw [counted, new, params]
  refine ⟨fun rate => if_pos ⟨Nat.lt_succ_self _, rate⟩, fun calm => if_neg fun h => calm h.2⟩

/-- What a damage leaves: its reports, and where they are written. -/
theorem damaged_spec :
    (p.atRate sep → (p.damaged n ref d).reports
      = { p with reports := p.damageTold n ref d sep }.after .damageRate (p.rateSubject n ref (p.damageCount sep)))
    ∧ (¬ p.atRate sep → (p.damaged n ref d).reports = p.damageTold n ref d sep)
    ∧ p.Only [.reports, .mem, .port] (p.damaged n ref d)
    ∧ p.Touches [reportRing, headerRange] (p.damaged n ref d)
    ∧ (¬ p.atRate sep → p.Touches p.reportRanges (p.damaged n ref d)) := by
  obtain ⟨atRate, calm⟩ := damaged_raises (ref := ref) (d := d) sepIs room
  have only : p.Only [.reports, .mem, .port] ((p.setReports (p.damageCounted sep)).headerWrite .damage) :=
    ((Only.refl _ p).setReports).headerWrite
  have quiet : (p.setReports (p.damageCounted sep)).Quiet ((p.setReports (p.damageCounted sep)).headerWrite .damage) :=
    ((Only.refl [.mem, .port] (p.setReports (p.damageCounted sep))).headerWrite).quiet
  have touches (ranges : List (Nat × Nat)) (inside : headerRange ∈ ranges) :
      p.Touches ranges ((p.setReports (p.damageCounted sep)).headerWrite .damage) :=
    ((Touches.refl _ p).setReports).headerWrite inside
  have written : ((p.setReports (p.damageCounted sep)).headerWrite .damage).reports.written = p.reports.written := by
    rw [headerWrite_reports]
    rfl
  have told := quiet.raise_reports .bandDamaged (p.damageSubject n ref d (p.damageCount sep))
  have once : p.Only [.reports, .mem, .port] (((p.setReports (p.damageCounted sep)).headerWrite .damage).raise
      .bandDamaged (p.damageSubject n ref d (p.damageCount sep))) := only.raise
  have ring (ranges : List (Nat × Nat)) (inside : headerRange ∈ ranges) (entry : ringRange p.reports.written ∈ ranges) :
      p.Touches ranges (((p.setReports (p.damageCounted sep)).headerWrite .damage).raise .bandDamaged
        (p.damageSubject n ref d (p.damageCount sep))) :=
    (touches ranges inside).raise (by rwa [written]) inside
  have area : p.Touches [reportRing, headerRange] (((p.setReports (p.damageCounted sep)).headerWrite .damage).raise
      .bandDamaged (p.damageSubject n ref d (p.damageCount sep))) :=
    (touches _ (by simp)).raise_ring (by simp) (by simp)
  generalize ((p.setReports (p.damageCounted sep)).headerWrite .damage).raise .bandDamaged
    (p.damageSubject n ref d (p.damageCount sep)) = a at atRate calm told once ring area
  have again : Part.Quiet { p with reports := p.damageTold n ref d sep } a :=
    ⟨area.cabase, once .params (by simp), once .sweep (by simp), once .tick (by simp), told⟩
  by_cases rate : p.atRate sep
  · rw [atRate rate]
    exact ⟨fun _ => again.raise_reports _ _, fun h => absurd rate h, once.raise, area.raise_ring (by simp) (by simp),
      fun h => absurd rate h⟩
  · rw [calm rate]
    exact ⟨fun h => absurd h rate, fun _ => told, once, area,
      fun _ => ring _ (by simp [reportRanges_eq]) (by simp [reportRanges_eq])⟩

end

/-! ## A failed copy enters an ABSENT band -/

/-- The damage of a failed copy (R163). -/
def copyDamage (ref : EntryRef) (c : Copy) : DamageInfo :=
  { found := c.found, origin := c.origin, block := c.block ref, computed := c.computed }

theorem applyCopy_damages {p : Part} {n : Fin 512} {ref : EntryRef} {c : Copy} {st : EntryState} {detail : Detail}
    {computed : Option Word} (absent : (p.slots[n].entry ref).state = .absent)
    (failed : c.judged = .failed st detail computed) :
    p.applyCopy n ref c = (p.changeSlot n fun x => x.setEntry ref c.entry).damaged n ref (copyDamage ref c) := by
  unfold applyCopy
  dsimp only
  rw [absent]
  dsimp only
  rw [failed]
  rfl

end Part

/-- The entry that a BAND copy with a wrong CRC makes (R32, R33). -/
def Parcel.crcBadEntry (c : Parcel) : Entry := (c.filing (.crcBad c.computedCrc)).entry

/-- BAND_DAMAGED of a BAND copy with a wrong CRC (R162, R163). -/
def Parcel.crcBadSubject (c : Parcel) (x : Slot) (n : Fin 512) (b : Fin 64) (count : Nat) : Subject :=
  .page { x.form n with
    kind := 2, index := b.val, cause := 1, stream := c.stream.val, flags := 13, a := 1
    b := c.header.crc.toNat, c := c.computedCrc.toNat, d := c.tick.toNat, addr := c.loc.blockAddr 0, e := count }

theorem Part.damageSubject_crcBad {p : Part} {n : Fin 512} {b : Fin 64} {c : Parcel} {x : Slot} {change : Word}
    (slot : p.slots[n] = { x.setEntry (.band b) c.crcBadEntry with change := change }) (count : Nat) :
    p.damageSubject n (.band b) (copyDamage (.band b) (c.filing (.crcBad c.computedCrc))) count
      = c.crcBadSubject x n b count := by
  have entry : p.slots[n].entry (.band b) = c.crcBadEntry := by
    rw [slot]
    exact Vector.set_same
  rw [Part.damageSubject, entry, slot, Slot.form_setEntry]
  rfl

/-- The reports after the damage of a BAND copy with a wrong CRC (R34, R163). -/
def Part.crcBadTold (p : Part) (c : Parcel) (n : Fin 512) (b : Fin 64) (sep : Fin 4) : ReportUnit :=
  { p with reports := p.damageCounted sep }.after .bandDamaged (c.crcBadSubject p.slots[n] n b (p.damageCount sep))

namespace Part

section
variable {p : Part} {c : Parcel} {n : Fin 512} {b : Fin 64} {sep : Fin 4}

/-- The damage that a BAND copy with a wrong CRC does to a part whose slot it has entered. -/
theorem crcBad_damages {a : Part} {change : Word} (sepIs : p.slots[n].id.sep = sep.val)
    (room : p.reports.damage[sep] < Config.max16) (quiet : p.Quiet a)
    (slot : a.slots[n] = { p.slots[n].setEntry (.band b) c.crcBadEntry with change := change }) :
    sepIndex a.slots[n].id.sep = sep ∧ a.reports.damage[sep] < Config.max16
      ∧ (a.atRate sep ↔ p.atRate sep)
      ∧ a.damageTold n (.band b) (copyDamage (.band b) (c.filing (.crcBad c.computedCrc))) sep = p.crcBadTold c n b sep
      ∧ a.rateSubject n (.band b) (a.damageCount sep) = p.rateSubject n (.band b) (p.damageCount sep) := by
  obtain ⟨cabase, params, sweep, tick, reports⟩ := quiet
  have counts : a.damageCount sep = p.damageCount sep := by rw [damageCount, reports, damageCount]
  have quiet : Part.Quiet { p with reports := p.damageCounted sep } { a with reports := a.damageCounted sep } :=
    ⟨cabase, params, sweep, tick, by rw [damageCounted, counts, reports, damageCounted]⟩
  refine ⟨?_, by rwa [reports], by rw [atRate, counts, params, atRate], ?_, ?_⟩
  · rw [slot]
    show sepIndex p.slots[n].id.sep = sep
    rw [sepIs]
    exact Fin.ext (Nat.mod_eq_of_lt sep.isLt)
  · rw [damageTold, damageSubject_crcBad slot, counts]
    exact quiet.after
  · rw [rateSubject, slot, Slot.form_setEntry, counts, params]
    rfl

/-- A BAND copy with a wrong CRC filed into its ABSENT entry (R32 to R35, R159 to R163). -/
theorem fileCopy_crcBad (state : p.slots[n].state = .filling ∨ p.slots[n].state = .stalled)
    (sepIs : p.slots[n].id.sep = sep.val) (inside : b.val < p.slots[n].geom.bandCount)
    (absent : (p.slots[n].entry (.band b)).state = .absent) (room : p.reports.damage[sep] < Config.max16) :
    ∃ q, p.fileCopy n (.band b) (c.filing (.crcBad c.computedCrc)) = q
      ∧ q.slots = p.slots.set n (p.filedSlot n b c.crcBadEntry)
      ∧ (p.atRate sep → q.reports
        = { p with reports := p.crcBadTold c n b sep }.after .damageRate
          (p.rateSubject n (.band b) (p.damageCount sep)))
      ∧ (¬ p.atRate sep → q.reports = p.crcBadTold c n b sep)
      ∧ p.Only [.slots, .reports, .mem, .port] q
      ∧ p.Touches [mirrorRange n, reportRing, headerRange] q
      ∧ (¬ p.atRate sep → p.Touches (mirrorRange n :: p.reportRanges) q) := by
  have only : p.Only [.slots, .mem, .port] (p.changeSlot n fun x => x.setEntry (.band b) c.crcBadEntry) :=
    (Only.refl _ _).changeSlot
  have touches : p.Touches [mirrorRange n] (p.changeSlot n fun x => x.setEntry (.band b) c.crcBadEntry) :=
    (Touches.refl _ _).changeSlot (by simp)
  have slot := p.changeSlot_get n fun x => x.setEntry (.band b) c.crcBadEntry
  have files : p.fileCopy n (.band b) (c.filing (.crcBad c.computedCrc))
      = ((p.changeSlot n fun x => x.setEntry (.band b) c.crcBadEntry).damaged n (.band b)
          (copyDamage (.band b) (c.filing (.crcBad c.computedCrc)))).slotFollows n p.slots[n].whole := by
    rw [fileCopy, applyCopy_damages absent rfl, Parcel.crcBadEntry]
  have slots := ((p.changeSlot n fun x => x.setEntry (.band b) c.crcBadEntry).damaged_slots n (.band b)
    (copyDamage (.band b) (c.filing (.crcBad c.computedCrc))))
  have bad : (p.slots[n].setEntry (.band b) c.crcBadEntry).bands[b].state ≠ .good := by
    rw [show (p.slots[n].setEntry (.band b) c.crcBadEntry).bands[b] = c.crcBadEntry from Vector.set_same]
    exact EntryState.noConfusion
  rw [slotFollows_notWhole state inside bad slots] at files
  have same := filedSlot_slots slots
  generalize (p.changeSlot n fun x => x.setEntry (.band b) c.crcBadEntry) = a at only touches slot files same
  obtain ⟨sepIndexed, room, isRate, toldIs, rateIs⟩ := crcBad_damages sepIs room only.quiet slot
  obtain ⟨rated, calm, only', touches', ranged⟩ := damaged_spec (ref := .band b)
    (d := copyDamage (.band b) (c.filing (.crcBad c.computedCrc))) sepIndexed room
  rw [toldIs] at rated calm
  generalize a.damaged n (.band b) (copyDamage (.band b) (c.filing (.crcBad c.computedCrc))) = d at *
  have all : p.Only [.slots, .reports, .mem, .port] d := (only.mono (by simp)).trans (only'.mono (by simp))
  have ranges : a.reportRanges = p.reportRanges := reportRanges_congr (only .reports (by simp))
  refine ⟨_, files, same (all .tick (by simp)) (all .params (by simp)), fun h => ?_, fun h => ?_, all.changeSlot,
    ((touches.mono (by simp)).trans (touches'.mono (by simp))).changeSlot (by simp), fun h => ?_⟩
  · rw [changeSlot_reports, rated (isRate.mpr h), rateIs]
    exact Quiet.after ⟨only .cabase (by simp), only .params (by simp), only .sweep (by simp), only .tick (by simp), rfl⟩
  · exact (changeSlot_reports _ _ _).trans (calm fun x => h (isRate.mp x))
  · exact ((touches.mono (by simp)).trans
      ((ranges ▸ ranged fun x => h (isRate.mp x)).mono (by simp))).changeSlot (by simp)

end

end Part

/-- Settles O29. -/
theorem badBandIsDamage : Obligations.BadBandIsDamage := by
  intro s k sep before after c n b up next kind found state sepIs index inside absent unmarked crc room
    count rate entry counted told
  have judged : judgeCopy c s.part.slots[n] (.band b) { slot := n, alloc := s.part.slots[n].alloc }
    = some (.crcBad c.computedCrc) := judgeCopy_crcBad unmarked crc
  have some : (s.part.setTransit (before ++ after)).versionSlot c.header.id c.header.version = some n := found
  have run := State.files_bandTone up next (by rw [kind]; decide)
  rw [Part.fileBandTone, some, Part.fileBandToneIn,
    Part.fileInto_judged (p := s.part.setTransit (before ++ after)) kind index inside judged] at run
  obtain ⟨q, made, slots, rated, calm, only, touches, ranged⟩ :=
    Part.fileCopy_crcBad (p := s.part.setTransit (before ++ after)) (c := c) state sepIs inside absent room
  rw [made] at run
  have toldIs : (s.part.setTransit (before ++ after)).crcBadTold c n b sep = told :=
    Part.Quiet.after (p := { s.part with reports := counted }) ⟨rfl, rfl, rfl, rfl, rfl⟩
  rw [toldIs] at rated calm
  refine ⟨_, run, slots, fun h => (rated h).trans ?_, calm, State.part_congr only.eq_pick, touches.kept,
    fun h => (ranged h).kept⟩
  exact Part.Quiet.after (p := { s.part with reports := told }) ⟨rfl, rfl, rfl, rfl, rfl⟩

end Sys2Proof.Machine
end

section
/-! SUPPORT. The adoption of a BAND (R42, R43). -/

namespace Sys2Proof.Machine

section
variable {before after : List Orphan} {o : Orphan} {b : Binding}

theorem Orphan.inFlight_none {x : Orphan} (unbound : x.binding = none) : x.inFlight = false := by
  rw [Orphan.inFlight, unbound]

theorem Orphan.inFlight_some {x : Orphan} (bound : x.binding = some b) : x.inFlight = b.begun := by
  rw [Orphan.inFlight, bound]

/-- The bound entry nearest to the head is adopted next where none is in flight (R42). -/
theorem nextAdoption_first (ahead : ∀ x ∈ before, x.binding = none) (bound : o.binding = some b)
    (idle : b.begun = false) (behind : ∀ x ∈ after, x.inFlight = false) :
    nextAdoption (before ++ o :: after) = some (o, b) := by
  have none : (before ++ o :: after).any Orphan.inFlight = false := by
    refine List.any_eq_false.mpr fun x hx => Bool.not_eq_true _ ▸ ?_
    rcases List.mem_append.mp hx with h | h
    · exact Orphan.inFlight_none (ahead x h)
    · rcases List.mem_cons.mp h with rfl | h
      · rw [Orphan.inFlight_some bound, idle]
      · exact behind x h
  have first : before.findSome? (fun o => o.binding.map fun b => (o, b)) = Option.none :=
    List.findSome?_eq_none_iff.mpr fun x hx => by rw [ahead x hx]; rfl
  rw [nextAdoption, none, if_neg Bool.false_ne_true, List.findSome?_append, first, List.findSome?_cons, bound]
  rfl

/-- The adoption in flight is that of the first entry that is in flight. -/
theorem currentAdoption_first (ahead : ∀ x ∈ before, x.inFlight = false) (bound : o.binding = some b)
    (begun : b.begun = true) : currentAdoption (before ++ o :: after) = some (o, b) := by
  have first : before.find? Orphan.inFlight = none :=
    List.find?_eq_none.mpr fun x hx => by rw [ahead x hx]; exact Bool.false_ne_true
  rw [currentAdoption, List.find?_append, first,
    List.find?_cons_of_pos ((Orphan.inFlight_some bound).trans begun), Option.none_or, Option.bind_some, bound]
  rfl

end

section
variable {p : Part} {o : Orphan} {a : Binding}

/-- The band that an orphan names in the slot it is bound to (R43). -/
theorem Part.startAdoption_band (kind : o.kind = .band) (small : o.index < 64)
    (inside : o.index < p.slots[a.ref.slot].geom.bandCount) :
    p.startAdoption o a = p.ownRead.setOrphans
      (p.orphans.map fun x => if x = o then { o with binding := some { a with begun := true } } else x) := by
  unfold Part.startAdoption
  dsimp only
  rw [kind, Geometry.entryRef?_band ⟨o.index, small⟩ rfl inside]

/-- The copy of an adopted BAND whose read-back ended well (R43). -/
def Orphan.adopted (o : Orphan) : Copy :=
  { loc := o.loc, storedCrc := o.storedCrc, tick := o.tick, stream := o.stream, judged := .good, found := .adoption }

theorem Part.endAdoption_band {cells : List Host.Cell} {b : Fin 64} (unmarked : a.mark = none) (kind : o.kind = .band)
    (index : o.index = b.val) (inside : b.val < p.slots[a.ref.slot].geom.bandCount)
    (good : spanVerdict p.slots[a.ref.slot].geom.width (p.slots[a.ref.slot].geom.lineCount b.val)
      (p.mem.payload cells o.loc) = .good) :
    p.endAdoption o a cells
      = (p.ownRead.setOrphans (p.orphans.erase o)).fileCopy a.ref.slot (.band b) o.adopted := by
  unfold Part.endAdoption
  dsimp only
  rw [kind, Geometry.entryRef?_band b index inside]
  dsimp only
  rw [index, good, Part.completeAdoption, unmarked]
  rfl

end

/-- Settles O31. -/
theorem adoptionOfABand : Obligations.AdoptionOfABand := by
  refine ⟨fun s before after o b up queue ahead bound idle behind kind small inside => ?begins,
    fun s cells before after o a b other up queue ahead bound begun unmarked kind index => ?ends⟩
  case begins =>
    have run : exec .adoptionStart s = .next { s with part := s.part.startAdoption o b } := by
      rw [exec_adoptionStart, onPart_up up, Part.beginAdoption, queue,
        nextAdoption_first ahead bound idle fun x hx => (behind x hx).1]
    have others (l : List Orphan) (apart : ∀ x ∈ l, x ≠ o) :
        l.map (fun x => if x = o then { o with binding := some { b with begun := true } } else x) = l :=
      (List.map_congr_left fun x hx => if_neg (apart x hx)).trans (List.map_id' l)
    have ahead' : ∀ x ∈ before, x ≠ o := by
      rintro x hx rfl
      exact nomatch (ahead x hx).symm.trans bound
    rw [run, Part.startAdoption_band kind small inside, queue, List.map_append, List.map_cons, others before ahead',
      others after fun x hx => (behind x hx).2, if_pos rfl]
    rfl
  case ends =>
    intro n state inside absent differs inside' bad good
    have run : exec (.adoptionComplete cells) s = .next { s with part := s.part.endAdoption o a cells } := by
      rw [exec_adoptionComplete, onPart_up up, Part.finishAdoption, queue, currentAdoption_first ahead bound begun]
    have left : s.part.orphans.erase o = before ++ after := by
      have notAhead : o ∉ before := fun h =>
        Bool.false_ne_true ((ahead o h).symm.trans ((Orphan.inFlight_some bound).trans begun))
      rw [queue, List.erase_append_right _ notAhead, List.erase_cons_head]
    rw [Part.endAdoption_band unmarked kind index inside good, left] at run
    obtain ⟨slots, only, touches⟩ := Part.fileCopy_enters (p := s.part.ownRead.setOrphans (before ++ after))
      (c := o.adopted) state differs inside' bad absent rfl
    exact ⟨_, run, slots, State.part_congr only.eq_pick, touches.kept⟩

end Sys2Proof.Machine
end

section
/-! SUPPORT. A valid new HEAD opens the lowest FREE slot (R27 to R29). -/

namespace Sys2Proof.Machine

/-! ## The checks of a HEAD (R28) -/

theorem headDescriptors_findIdx_none {h : Header} {capture : List Byte} {bad : Descriptor → Bool}
    (good : ∀ r, r < h.toneCount → bad (parseDescriptor capture r) = false) :
    (headDescriptors h capture).findIdx? bad = none := by
  refine List.findIdx?_eq_none_iff.mpr fun d hd => ?_
  obtain ⟨r, hr, rfl⟩ := List.mem_map.mp hd
  exact good r (List.mem_range.mp hr)

theorem Parcel.validHead.invalid_none {c : Parcel} (valid : c.validHead) :
    headInvalid c.header c.capture c.computedCrc = none := by
  obtain ⟨crc, tones, length, wide, width, tall, height, deep, depth, bands, count, regions⟩ := valid
  have inPage := headDescriptors_findIdx_none (h := c.header) (capture := c.capture)
    (bad := fun d => !d.inPage c.header) fun r hr => by
      obtain ⟨w, h, right, bottom, -⟩ := regions r hr
      simp [Descriptor.inPage, w, h, right, bottom]
  have scaled := headDescriptors_findIdx_none (h := c.header) (capture := c.capture)
    (bad := fun d => !(decide (1 ≤ d.scale) && decide (d.scale ≤ 16))) fun r hr => by
      obtain ⟨-, -, -, -, low, high⟩ := regions r hr
      simp [low, high]
  unfold headInvalid
  rw [if_neg (not_not.mpr crc), if_neg (by omega), if_neg (not_not.mpr length), if_neg (by omega), if_neg (by omega)]
  dsimp only
  rw [inPage]
  dsimp only
  rw [scaled]

/-! ## An act for each number -/

theorem foldl_fixed {α β : Type} {act : α → β → α} {a : α} : ∀ {bs : List β}, (∀ b ∈ bs, act a b = a) →
    bs.foldl act a = a
  | [], _ => rfl
  | b :: bs, fixed => by
    rw [List.foldl_cons, fixed b List.mem_cons_self]
    exact foldl_fixed fun x hx => fixed x (List.mem_cons_of_mem b hx)

theorem forEach_fixed {α : Type} {n : Nat} {act : α → Fin n → α} {a : α} (fixed : ∀ j, act a j = a) :
    forEach n act a = a := foldl_fixed fun j _ => fixed j

/-- An act that moves at one number only. -/
theorem forEach_once {α : Type} {n : Nat} {act : α → Fin n → α} {a : α} (i : Fin n) (below : ∀ j, j < i → act a j = a)
    (above : ∀ j, i < j → act (act a i) j = act a i) : forEach n act a = act a i := by
  obtain ⟨before, after, list⟩ := List.append_of_mem (List.mem_finRange i)
  have sorted := List.pairwise_lt_finRange n
  rw [list, List.pairwise_append, List.pairwise_cons] at sorted
  obtain ⟨-, ⟨greater, -⟩, less⟩ := sorted
  rw [forEach, list, List.foldl_append, foldl_fixed fun j hj => below j (less j hj i List.mem_cons_self),
    List.foldl_cons, foldl_fixed fun j hj => above j (greater j hj)]

namespace Part

section
variable {p : Part} {c : Parcel} {n : Fin 512}

theorem findSlot_lowest {test : Slot → Bool} (hit : test p.slots[n] = true)
    (below : ∀ m : Fin 512, m < n → test p.slots[m] = false) : p.findSlot test = some n :=
  findNumbered_lowest hit below

/-- A valid HEAD newer than every in-use slot of its identity opens the lowest FREE slot (R27). -/
theorem fileHead_opens (valid : c.validHead) (newer : p.newerThanAll c.header.id c.header.version)
    (free : p.slots[n].state = .free) (below : ∀ m : Fin 512, m < n → p.slots[m].state ≠ .free) :
    p.fileHead c = p.openPage c n := by
  have lowest : p.findSlot (fun s => s.state == .free) = some n :=
    findSlot_lowest (by rw [free]; rfl) fun m hm => beq_false_of_ne (below m hm)
  rw [fileHead, newer.versionSlot, fileHeadIn, newer.outdated, if_neg Bool.false_ne_true, newHead, valid.invalid_none]
  dsimp only
  rw [lowest]
  rfl

/-! ## The opening (R29, R30) -/

/-- PAGE_OPENED (R29). -/
def openedSubject (c : Parcel) (n : Fin 512) : Subject :=
  .page { edition := c.header.edition, zone := c.header.zone, sep := c.header.sep, page := c.header.page
          version := c.header.version, slot := n.val, flags := 8, a := c.header.bandCount, b := c.header.toneCount }

/-- The part as its slot is set up, PAGE_OPENED not yet raised (R29). -/
def setUpSlot (p : Part) (c : Parcel) (n : Fin 512) : Part := p.changeSlot n fun s => s.opened c p.gapDeadline

/-- The part after PAGE_OPENED (R29). -/
def pageOpened (p : Part) (c : Parcel) (n : Fin 512) : Part := (p.setUpSlot c n).raise .pageOpened (openedSubject c n)

/-- The old current slot, if there is one, superseded (R30). -/
def supersedeOld (p : Part) (n : Fin 512) : Option (Fin 512) → Part
  | none => p
  | some m => p.supersede m n

/-- The old current slot marked and PAGE_SUPERSEDED raised (R30, step 1). -/
def marksSuperseded (p : Part) (m n : Fin 512) : Part :=
  (p.changeSlot m fun s => { s with state := .superseded, deadline := none }).raise .pageSuperseded
    (.page { (p.changeSlot m fun s => { s with state := .superseded, deadline := none }).slots[n].form n with
      a := m.val, b := p.slots[m].version })

theorem supersede_eq (p : Part) (m n : Fin 512) :
    p.supersede m n = if (p.marksSuperseded m n).slots[m].pins = 0 then (p.marksSuperseded m n).freeSlot m
      else p.marksSuperseded m n := rfl

theorem supersede_orphans (m : Fin 512) (empty : p.orphans = []) : (p.supersede m n).orphans = [] := by
  have marked : (p.marksSuperseded m n).orphans = [] :=
    (raise_orphans _ _ _).trans ((changeSlot_orphans _ _ _).trans empty)
  rw [supersede_eq]
  generalize p.marksSuperseded m n = a at marked
  split
  · rw [freeSlot_orphans, marked]
    rfl
  · exact marked

theorem dropOrphans_none {test : Orphan → Bool} {cause : DropCause} (empty : p.orphans = []) :
    p.dropOrphans test cause = p := by
  unfold dropOrphans
  dsimp only
  rw [empty]
  exact congrArg p.setOrphans empty.symm

theorem adoptOrphans_none {id : Identity} {version : Nat} {ref : SlotRef} (empty : p.orphans = []) :
    p.adoptOrphans id version ref = p := by
  unfold adoptOrphans
  rw [empty]
  exact congrArg p.setOrphans empty.symm

/-- A HEAD filed while no orphan waits (R29, R30). -/
theorem openPage_noOrphans (empty : p.orphans = []) :
    p.openPage c n = ((p.pageOpened c n).supersedeOld n (p.currentSlot c.header.id)).tellCurrent n := by
  have opened : p.pageOpened c n = (p.setUpSlot c n).raise .pageOpened
      (.page { (p.setUpSlot c n).slots[n].form n with a := c.header.bandCount, b := c.header.toneCount }) := by
    rw [setUpSlot, changeSlot_get]
    rfl
  have left : (p.pageOpened c n).orphans = [] := (raise_orphans _ _ _).trans ((changeSlot_orphans _ _ _).trans empty)
  unfold openPage
  dsimp only
  rw [← setUpSlot, ← opened]
  generalize p.pageOpened c n = a at left
  cases p.currentSlot c.header.id with
  | none =>
    dsimp only
    rw [dropOrphans_none left, adoptOrphans_none left]
    rfl
  | some m =>
    dsimp only
    rw [dropOrphans_none (supersede_orphans m left), adoptOrphans_none (supersede_orphans m left)]
    rfl

end

/-! ## Plate control with nothing to do (R44) -/

section
variable {p : Part}

theorem feed_empty {k : Fin 2} (empty : p.channels[k].ready = []) : p.feed k = p := by
  rw [feed, empty]
  rfl

theorem feedAll_empty (empty : ∀ k : Fin 2, p.channels[k].ready = []) : p.feedAll = p := by
  rw [feedAll, feed_empty (empty 0), feed_empty (empty 1)]

theorem Plate.idle_of_unarmed {x : Plate} (unarmed : x.state.armed = false) :
    x.open_ = false ∧ x.state ≠ .exposing ∧ x.state ≠ .waiting ∧ x.listed = false := by
  rw [Plate.open_, Plate.listed]
  revert unarmed
  generalize x.state = state
  cases state <;> decide

/-- Plate control does not act on a plate that is not armed. -/
theorem followNewest_idle {n : Fin 64} {slot : Fin 512} {taken : List (Fin 64 × Fin 4)}
    (unarmed : p.plates[n].state.armed = false) : followNewest (p, taken) n slot = (p, taken) := by
  obtain ⟨closed, resting, -, -⟩ := Plate.idle_of_unarmed unarmed
  unfold followNewest
  dsimp only
  rw [if_neg resting, closed, Bool.false_and, if_neg Bool.false_ne_true]

theorem resolveWaiting_idle {n : Fin 64} {slot : Fin 512} {taken : List (Fin 64 × Fin 4)}
    (unarmed : p.plates[n].state.armed = false) : p.resolveWaiting n taken slot = p := by
  obtain ⟨closed, -, -, -⟩ := Plate.idle_of_unarmed unarmed
  rw [resolveWaiting, closed, if_neg Bool.false_ne_true]

theorem tellCurrent_noPlates {n : Fin 512} (none : p.noPlates) : p.tellCurrent n = p := by
  obtain ⟨unarmed, empty⟩ := none
  have followed : forEach 64 (fun x n' => followNewest x n' n) (p, []) = (p, []) :=
    forEach_fixed fun j => followNewest_idle (unarmed j)
  have resolved : forEach 64 (fun (p : Part) j => p.resolveWaiting j [] n) p = p :=
    forEach_fixed fun j => resolveWaiting_idle (unarmed j)
  unfold tellCurrent
  dsimp only
  rw [followed]
  dsimp only
  rw [resolved, feedAll_empty empty]

end

section
variable (p : Part) (c : Parcel) (n : Fin 512)

theorem pageOpened_slots : (p.pageOpened c n).slots = p.slots.set n
    { state := .filling, id := c.header.id, version := c.header.version
      alloc := p.slots[n].alloc + 1, change := p.slots[n].change + 1, filterHit := c.hit
      geom := headGeometry c.header c.capture
      deadline := some (p.tick + BitVec.ofNat 32 p.params.gapMs) } :=
  (raise_slots _ _ _).trans (changeSlot_slots _ _ _)

theorem setUpSlot_only : p.Only [.slots, .mem, .port] (p.setUpSlot c n) := (Only.refl _ p).changeSlot

theorem pageOpened_only : p.Only [.slots, .reports, .mem, .port] (p.pageOpened c n) :=
  ((p.setUpSlot_only c n).mono (by simp)).raise

theorem pageOpened_reports : (p.pageOpened c n).reports = p.after .pageOpened (openedSubject c n) :=
  (p.setUpSlot_only c n).quiet.raise_reports _ _

theorem pageOpened_touches : p.Touches (mirrorRange n :: p.reportRanges) (p.pageOpened c n) := by
  have reports : (p.setUpSlot c n).reports = p.reports := changeSlot_reports _ _ _
  have set : p.Touches (mirrorRange n :: p.reportRanges) (p.setUpSlot c n) := (Touches.refl _ p).changeSlot (by simp)
  exact set.raise (by rw [reports]; simp [reportRanges_eq]) (by simp [reportRanges_eq])

end

end Part

/-- Settles O26. -/
theorem headOpensTheLowestFreeSlot : Obligations.HeadOpensTheLowestFreeSlot := by
  intro s k before after c n up next kind valid newer noCurrent free below empty noPlates
  have run := State.files_head up next kind
  have current : (s.part.setTransit (before ++ after)).currentSlot c.header.id = none := by
    refine Part.findSlot_none_of fun m => ?_
    by_contra found
    simp only [Bool.not_eq_false, Bool.and_eq_true, beq_iff_eq] at found
    exact noCurrent m found.1 found.2
  have opens : (s.part.setTransit (before ++ after)).fileHead c
      = ((s.part.setTransit (before ++ after)).pageOpened c n).tellCurrent n := by
    rw [Part.fileHead_opens (p := s.part.setTransit (before ++ after)) valid newer free below,
      Part.openPage_noOrphans (p := s.part.setTransit (before ++ after)) empty, current]
    rfl
  have only := (s.part.setTransit (before ++ after)).pageOpened_only c n
  have slots := (s.part.setTransit (before ++ after)).pageOpened_slots c n
  have reports := (s.part.setTransit (before ++ after)).pageOpened_reports c n
  have touches := (s.part.setTransit (before ++ after)).pageOpened_touches c n
  rw [opens] at run
  generalize (s.part.setTransit (before ++ after)).pageOpened c n = q at run only slots reports touches
  have idle : q.noPlates := by
    obtain ⟨unarmed, empty⟩ := noPlates
    have plates : q.plates = s.part.plates := only .plates (by simp)
    have channels : q.channels = s.part.channels := only .channels (by simp)
    exact ⟨fun m => by rw [plates]; exact unarmed m, fun j => by rw [channels]; exact empty j⟩
  rw [Part.tellCurrent_noPlates idle] at run
  have transit : s.part.Only [.transit, .slots, .reports, .mem, .port] (s.part.setTransit (before ++ after)) :=
    (Part.Only.refl _ _).setTransit
  refine ⟨_, run, only .transit (by simp), slots, reports.trans ?_,
    State.part_congr (transit.trans (only.mono (by simp))).eq_pick, touches.kept⟩
  exact Part.Quiet.after (p := s.part) ⟨rfl, rfl, rfl, rfl, rfl⟩

end Sys2Proof.Machine
end

section
/-! SUPPORT. The end of a sweep (R185, R187, R197). -/

namespace Sys2Proof.Machine

namespace Part

/-- What a sweep may change: the sweep itself, the units of screen sets whose DONE it lets go, memory and the port. -/
theorem sweepItem_only (p : Part) (it : SweepItem) : p.Only [.sweep, .units, .mem, .port] (p.sweepItem it) := by
  unfold sweepItem
  dsimp only
  split
  · exact Only.ite (((Only.refl _ p).setSweep).statusWrite).finish (((Only.refl _ p).setSweep).statusWrite)
  · exact ((Only.refl _ p).setSweep).statusWrite
  · exact ((Only.refl _ p).setSweep).mirrorWrite

theorem sweepRest_only (p : Part) : p.Only [.sweep, .units, .mem, .port] p.sweepRest :=
  (Only.refl _ p).foldl _ (fun a it => a.sweepItem_only it) _

/-- A sweep ends the commands of screen sets alone (R94). -/
theorem sweepItem_unit (p : Part) (it : SweepItem) {r : RecordId} (other : ∀ n, r ≠ .screenSet n) :
    (p.sweepItem it).unit r = p.unit r := by
  unfold sweepItem
  dsimp only
  split
  · split
    · refine (finish_unit_ne _ _ _ _ _ (other _)).trans ?_
      rw [unit_congr (statusWrite_units _ _)]
      rfl
    · rw [unit_congr (statusWrite_units _ _)]
      rfl
  · rw [unit_congr (statusWrite_units _ _)]
    rfl
  · rw [unit_congr (mirrorWrite_units _ _ _ _)]
    rfl

theorem sweepRest_unit (p : Part) {r : RecordId} (other : ∀ n, r ≠ .screenSet n) : p.sweepRest.unit r = p.unit r :=
  foldl_same (fun a : Part => a.unit r) sweepItem (fun a it => a.sweepItem_unit it other) _ p

/-- The part as its sweep has written its last record. -/
def swept (p : Part) : Part := p.sweepRest.setSweep .none

theorem swept_only (p : Part) : p.Only [.sweep, .units, .mem, .port] p.swept := (p.sweepRest_only).setSweep

/-- Where the sweep is over, it is as in a part without one. -/
theorem Only.over {changed : List Table} {p q : Part} (h : p.Only (.sweep :: changed) q) (ended : q.sweep = .none) :
    (p.setSweep .none).Only changed q := by
  intro x notChanged
  by_cases sweep : x = .sweep
  · subst sweep
    exact ended
  · have same := h x (List.not_mem_cons_of_ne_of_not_mem sweep notChanged)
    cases x with
    | sweep => exact absurd rfl sweep
    | _ => exact same

/-- STARTED is the first record after a sweep (R197). -/
theorem raiseStarted_written {p : Part} {cause : StartCause} (none : p.reports.hold = []) (ended : p.sweep = .none)
    (room : p.reports.unread < 512) :
    p.raiseStarted cause = p.writeReport
      { kind := .started, tick := p.tick, subject := .started cause p.base p.tkdiv.toNat } := by
  have held : p.setReports { p.reports with hold := [] } = p := by
    rw [← none]
    rfl
  unfold raiseStarted
  dsimp only
  rw [held, none]
  exact takeReport_written p { kind := .started, tick := p.tick, subject := .started cause p.base p.tkdiv.toNat } rfl
    (by rw [sweeping, ended]; rfl) room

/-- The end of a sweep whose reports were none (R185, R187, R197). -/
structure SweepOver (p : Part) (cause : StartCause) (q : Part) : Prop where
  reports : q.reports = { p.reports with written := p.reports.written + 1, recent := satInc 512 p.reports.recent }
  started : q.mem.readBytes (p.base + ringOffset p.reports.written) 64
    = { kind := .started, tick := p.tick, subject := .started cause p.base p.tkdiv.toNat : Report }.bytes
      p.reports.written
  units : ∀ r, (∀ n, r ≠ .screenSet n) → q.unit r = p.unit r
  ended : q.sweep = .none
  only : p.Only [.sweep, .units, .mem, .port, .reports] q
  keeps : p.Keeps q

theorem endSweep_over {p : Part} {cause : StartCause} (none : p.reports.hold = []) (room : p.reports.unread < 512)
    (wf : Memory.wf p.mem) : p.SweepOver cause (p.endSweep cause) := by
  have only := p.swept_only
  have keeps : p.Keeps p.swept := ((Keeps.refl p).sweepRest).setSweep
  have units (r : RecordId) (other : ∀ n, r ≠ .screenSet n) : p.swept.unit r = p.unit r := p.sweepRest_unit other
  have ended : p.swept.sweep = .none := rfl
  have keeps' : p.Keeps (p.endSweep cause) := (Keeps.refl p).endSweep
  unfold endSweep at keeps' ⊢
  rw [← swept] at keeps' ⊢
  generalize p.swept = a at *
  have reports : a.reports = p.reports := only .reports (by simp)
  have base : a.base = p.base := base_congr keeps.cabase
  rw [raiseStarted_written (by rw [reports]; exact none) ended (by rw [reports]; exact room), base, keeps.tick,
    keeps.tkdiv] at keeps' ⊢
  have ring := a.writeReport_ring
    { kind := .started, tick := p.tick, subject := .started cause p.base p.tkdiv.toNat } (keeps.wf wf)
  rw [base, reports] at ring
  refine ⟨?_, ring, fun r other => ?_, (writeReport_sweep _ _).trans ended, ?_, keeps'⟩
  · rw [writeReport_reports, reports]
    rfl
  · rw [unit_congr (writeReport_units _ _)]
    exact units r other
  · exact (only.mono (more := [.sweep, .units, .mem, .port, .reports]) (by simp)).writeReport (by simp)

end Part

/-- Settles O6. -/
theorem sweepsEnd : Obligations.SweepsEnd := by
  refine ⟨fun s k up sweep none room wf => ?startUp, fun s k up sweep none room wf => ?restart⟩
  case startUp =>
    have run : exec .startUpSweepEnd s = .next { s with part := s.part.endSweep .hardReset } := by
      have running : s.part.startingUp = true := by rw [Part.startingUp, sweep]
      rw [exec_startUpSweepEnd, onPart_up up, Part.endStartUp, if_pos running]
    obtain ⟨reports, started, units, ended, only, keeps⟩ := Part.endSweep_over (cause := .hardReset) none room wf
    generalize s.part.endSweep .hardReset = q at *
    exact ⟨_, run, State.part_congr (only.over ended).eq_pick, reports, started, units, keeps.owned⟩
  case restart =>
    have run : exec .restartSweepEnd s
        = .next { s with part := (s.part.endSweep .restart).finishFree .header .done } := by
      have running : s.part.restarting = true := s.part.restarting_iff.mpr ⟨k, sweep⟩
      rw [exec_restartSweepEnd, onPart_up up, Part.endRestart, if_pos running]
    obtain ⟨reports, started, units, ended, only, keeps⟩ := Part.endSweep_over (cause := .restart) none room wf
    generalize s.part.endSweep .restart = q at *
    have unit := units .header fun n => RecordId.noConfusion
    have sweep' : (q.finishFree .header .done).sweep = .none := (Part.finishFree_sweep _ _ _).trans ended
    have all : s.part.Only [.sweep, .units, .mem, .port, .reports, .freeReads] (q.finishFree .header .done) :=
      (only.mono (by simp)).finishFree
    obtain ⟨detail, result, -, -⟩ := Part.finishFree_ended (p := q) (r := .header) (c := .done) rfl
      (Part.Touches.refl [] q)
    have touches : q.Touches [resultRange .header] (q.finishFree .header .done) :=
      (Part.Touches.refl _ q).finishFree (by simp)
    have kept := touches.readBytes (off := ringOffset s.part.reports.written) (n := 64) fun x hx => by
      rw [List.mem_singleton.mp hx]
      exact Or.inr (ringOffset_apart_resultRange _ _)
    rw [Part.base_congr keeps.cabase] at kept
    rw [unit] at result
    exact ⟨_, run, State.part_congr (all.over sweep').eq_pick, (Part.finishFree_reports _ _ _).trans reports,
      kept.trans started, ⟨detail, result⟩, keeps.finishFree.owned⟩

end Sys2Proof.Machine
end

section
/-! SUPPORT. Plate control: pins released (R109), lists left (R111, R113), a plate that fails (R112, R115). -/

namespace Sys2Proof.Machine

/-! ## Pins (R109) -/

/-- A resolution whose pin has been released: slot and version stay shown (R109). -/
def Resolution.unpinned (r : Resolution) : Resolution := { r with pinned := false }

/-- A plate with no pin (R109). -/
def Plate.unpinned (x : Plate) : Plate := { x with res := x.res.map Resolution.unpinned }

/-- The plate with one pin released. -/
def Plate.unpinAt (x : Plate) (k : Fin 4) : Plate := x.setRes k x.res[k].unpinned

theorem Plate.unpinAt_res (x : Plate) (k : Fin 4) : (x.unpinAt k).res[k] = x.res[k].unpinned := Vector.set_same

theorem Plate.unpinAt_res_ne (x : Plate) {j k : Fin 4} (other : k ≠ j) : (x.unpinAt j).res[k] = x.res[k] :=
  Vector.set_other other

theorem Plate.unpinAt_pinned {x : Plate} {k i : Fin 4} (pinned : (x.unpinAt k).res[i].pinned = true) :
    x.res[i].pinned = true ∧ (x.unpinAt k).res[i] = x.res[i] := by
  by_cases same : i = k
  · subst same
    rw [Plate.unpinAt_res] at pinned
    exact nomatch pinned
  · rw [Plate.unpinAt_res_ne x same] at pinned
    exact ⟨pinned, Plate.unpinAt_res_ne x same⟩

theorem Plate.unpinAt_free {x : Plate} {k : Fin 4} (free : x.res[k].pinned = false) : x.unpinAt k = x := by
  have same : x.res[k].unpinned = x.res[k] := by rw [Resolution.unpinned, ← free]
  rw [Plate.unpinAt, same]
  exact congrArg (fun r => { x with res := r }) (Vector.set_getElem_self k.isLt)

theorem Plate.unpinAt_all (x : Plate) : (((x.unpinAt 0).unpinAt 1).unpinAt 2).unpinAt 3 = x.unpinned := by
  have res : ((((x.unpinAt 0).unpinAt 1).unpinAt 2).unpinAt 3).res = x.unpinned.res := by
    apply Vector.ext
    intro i hi
    have four : i = 0 ∨ i = 1 ∨ i = 2 ∨ i = 3 := by omega
    rcases four with rfl | rfl | rfl | rfl <;> simp [Plate.unpinAt, Plate.setRes, Plate.unpinned]
  exact congrArg (fun r => { x with res := r }) res

namespace Part

section
variable (p : Part) (n : Fin 64) (k : Fin 4)

theorem releasePin_plates (m : Fin 512) : (p.releasePin m).plates = p.plates :=
  ((Only.refl [.mem, .port, .reports, .orphans, .slots] p).releasePin (n := m)) .plates (by simp)

theorem unpin_plates : (p.unpin n k).plates = p.plates.set n (p.plates[n].unpinAt k) := by
  unfold unpin
  dsimp only
  split
  · exact releasePin_plates _ _
  · rename_i free
    rw [Plate.unpinAt_free (eq_false_of_ne_true free)]
    exact (Vector.set_getElem_self n.isLt).symm

theorem unpin_only : p.Only [.plates, .slots, .orphans, .reports, .mem, .port] (p.unpin n k) := by
  unfold unpin
  dsimp only
  split
  · exact ((Only.refl _ p).changePlate).releasePin
  · exact Only.refl _ p

end

theorem unpinAll_only (p : Part) (n : Fin 64) :
    p.Only [.plates, .slots, .orphans, .reports, .mem, .port] (p.unpinAll n) :=
  (Only.refl _ p).forEach _ fun a k => a.unpin_only n k

/-- Every pin of the plate is released; nothing else of any plate changes (R109). -/
theorem unpinAll_plates (p : Part) (n : Fin 64) :
    (p.unpinAll n).plates = p.plates.set n p.plates[n].unpinned := by
  have step {a : Part} {x : Plate} (h : a.plates = p.plates.set n x) (k : Fin 4) :
      (a.unpin n k).plates = p.plates.set n (x.unpinAt k) := by
    rw [unpin_plates, Vector.get_of_eq_set h, h, Vector.set_set]
  have four : p.unpinAll n = (((p.unpin n 0).unpin n 1).unpin n 2).unpin n 3 := by
    rw [unpinAll, forEach, show List.finRange 4 = [0, 1, 2, 3] from rfl]
    simp only [List.foldl_cons, List.foldl_nil]
  rw [four, step (step (step (p.unpin_plates n 0) 1) 2) 3, Plate.unpinAt_all]

/-- A released pin (R26): one pin less, and the slot freed where it was the last of a SUPERSEDED one. -/
def pinReleased (x y : Slot) : Prop :=
  (¬ (x.state = .superseded ∧ x.pins ≤ 1) → y = { x with pins := x.pins - 1, change := x.change + 1 })
    ∧ (x.state = .superseded → x.pins ≤ 1 → y.state = .free)

theorem releasePin_get (p : Part) (m : Fin 512) : pinReleased p.slots[m] (p.releasePin m).slots[m] := by
  have slot := p.changeSlot_get m fun s => { s with pins := s.pins - 1 }
  unfold releasePin
  dsimp only
  generalize (p.changeSlot m fun s => { s with pins := s.pins - 1 }) = a at slot
  refine ⟨fun kept => ?_, fun superseded last => ?_⟩
  · rw [if_neg]
    · exact slot
    · rw [slot]
      exact fun h => kept ⟨h.1, Nat.sub_eq_zero_iff_le.mp h.2⟩
  · rw [if_pos]
    · rw [freeSlot_slots]
      exact congrArg Slot.state Vector.set_same
    · rw [slot]
      exact ⟨superseded, Nat.sub_eq_zero_of_le last⟩

theorem freeSlot_get_ne (p : Part) {m j : Fin 512} (other : j ≠ m) : (p.freeSlot m).slots[j] = p.slots[j] := by
  have slots := p.freeSlot_slots m
  generalize p.freeSlot m = q at slots
  rw [slots]
  exact Vector.set_other other

theorem releasePin_get_ne (p : Part) {m j : Fin 512} (other : j ≠ m) : (p.releasePin m).slots[j] = p.slots[j] := by
  have slot := p.changeSlot_get_ne m j (fun s => { s with pins := s.pins - 1 }) other
  unfold releasePin
  dsimp only
  generalize (p.changeSlot m fun s => { s with pins := s.pins - 1 }) = a at slot
  split
  · exact (a.freeSlot_get_ne other).trans slot
  · exact slot

section
variable {p : Part} {n : Fin 64} {m : Fin 512} {i k : Fin 4}

/-- The plate's placement is pinned to the slot. -/
def pinsSlot (p : Part) (n : Fin 64) (m : Fin 512) (k : Fin 4) : Prop :=
  p.plates[n].res[k].pinned = true ∧ p.plates[n].res[k].slot = m

theorem unpin_pinsSlot (h : (p.unpin n k).pinsSlot n m i) : p.pinsSlot n m i := by
  obtain ⟨pinned, slot⟩ := h
  rw [Vector.get_of_eq_set (p.unpin_plates n k)] at pinned slot
  obtain ⟨before, same⟩ := Plate.unpinAt_pinned pinned
  exact ⟨before, by rw [← same]; exact slot⟩

theorem unpin_slot_other (other : ¬ p.pinsSlot n m k) : (p.unpin n k).slots[m] = p.slots[m] := by
  unfold unpin
  dsimp only
  split
  · rename_i pinned
    rw [releasePin_get_ne]
    · rfl
    · exact fun same => other ⟨pinned, same.symm⟩
  · rfl

theorem unpin_slot (pins : p.pinsSlot n m k) : pinReleased p.slots[m] (p.unpin n k).slots[m] := by
  obtain ⟨pinned, rfl⟩ := pins
  unfold unpin
  dsimp only
  rw [if_pos pinned]
  have released := (p.changePlate n fun x => x.setRes k { p.plates[n].res[k] with pinned := false }).releasePin_get
    p.plates[n].res[k].slot
  generalize (p.changePlate n fun x => x.setRes k { p.plates[n].res[k] with pinned := false }).releasePin
    p.plates[n].res[k].slot = q at released ⊢
  exact released

/-- A slot that no placement is pinned to stays as it is. -/
theorem unpinAll_slot_other (others : ∀ i : Fin 4, ¬ p.pinsSlot n m i) : (p.unpinAll n).slots[m] = p.slots[m] :=
  (forEach_keeps (fun a : Part => a.slots[m] = p.slots[m] ∧ ∀ i : Fin 4, ¬ a.pinsSlot n m i)
    (fun (a : Part) k => a.unpin n k)
    (fun a k ⟨same, apart⟩ => ⟨(unpin_slot_other (apart k)).trans same, fun j h => apart j (unpin_pinsSlot h)⟩)
    p ⟨rfl, others⟩).1

/-- Placement `i` is the only one pinned to the slot. -/
def pinsAlone (p : Part) (n : Fin 64) (m : Fin 512) (i : Fin 4) : Prop := ∀ j : Fin 4, j ≠ i → ¬ p.pinsSlot n m j

/-- A slot that one placement is pinned to has one pin less. -/
theorem unpinAll_slot (pins : p.pinsSlot n m i) (alone : p.pinsAlone n m i) :
    pinReleased p.slots[m] (p.unpinAll n).slots[m] := by
  refine (forEach_each (act := fun (a : Part) k => a.unpin n k)
    (Q := fun k a => k = i → a.slots[m] = p.slots[m] ∧ a.pinsSlot n m i ∧ a.pinsAlone n m i)
    (P := fun k a => k = i → pinReleased p.slots[m] a.slots[m] ∧ a.pinsAlone n m i)
    (fun a j k other h same => ?before) (fun a k h same => ?made) (fun a j k other h same => ?after) p
    (fun k _ => ⟨rfl, pins, alone⟩) i rfl).1
  case before =>
    subst same
    obtain ⟨slot, pins, alone⟩ := h rfl
    refine ⟨(unpin_slot_other (alone j other)).trans slot, ?_, fun i' ne h => alone i' ne (unpin_pinsSlot h)⟩
    obtain ⟨pinned, own⟩ := pins
    rw [pinsSlot, Vector.get_of_eq_set (a.unpin_plates n j), Plate.unpinAt_res_ne _ (Ne.symm other)]
    exact ⟨pinned, own⟩
  case made =>
    subst same
    obtain ⟨slot, pins, alone⟩ := h rfl
    exact ⟨slot ▸ unpin_slot pins, fun i' ne h => alone i' ne (unpin_pinsSlot h)⟩
  case after =>
    subst same
    obtain ⟨released, alone⟩ := h rfl
    exact ⟨by rw [unpin_slot_other (alone j other)]; exact released, fun i' ne h => alone i' ne (unpin_pinsSlot h)⟩

end

end Part
end Sys2Proof.Machine
end

section
/-! SUPPORT. READY lists and queues (R111, R113), and the arm deadline (R115). -/

namespace Sys2Proof.Machine

namespace Part

section
variable (p : Part) (k : Fin 2) (ready queue : List (Fin 64))

/-- The status records of plates rewritten: no table changes. -/
theorem plateStatuses_only (q : Part) (ns : List (Fin 64)) : q.Only [.mem, .port] (ns.foldl plateStatus q) :=
  (Only.refl _ q).foldl _ (fun a _ => (Only.refl _ a).plateStatus) _

theorem setLists_channels :
    (p.setLists k ready queue).channels
      = p.channels.set k ({ p.channels[k] with ready := ready, queue := queue } : Channel).follow :=
  (plateStatuses_only _ _ .channels (by simp)).trans (p.changeChannel_channels k _)

theorem setLists_only : p.Only [.channels, .mem, .port] (p.setLists k ready queue) :=
  ((Only.refl _ p).changeChannel).trans ((plateStatuses_only _ _).mono (by simp))

end

theorem leaveLists_only (p : Part) (n : Fin 64) : p.Only [.channels, .mem, .port] (p.leaveLists n) :=
  p.setLists_only _ _ _

theorem leaveLists_channels (p : Part) (n : Fin 64) :
    (p.leaveLists n).channels = p.channels.set p.plates[n].copy.channel
      ({ p.channels[p.plates[n].copy.channel] with
          ready := p.channels[p.plates[n].copy.channel].ready.filter (· != n)
          queue := p.channels[p.plates[n].copy.channel].queue.filter (· != n) } : Channel).follow :=
  p.setLists_channels _ _ _

end Part

/-- The channel state follows the queue; the lists stay (R113, R126). -/
theorem Channel.follow_lists (c : Channel) : c.follow.ready = c.ready ∧ c.follow.queue = c.queue := by
  unfold Channel.follow
  split
  · exact ⟨rfl, rfl⟩
  · exact ⟨rfl, rfl⟩
  · exact ⟨rfl, rfl⟩

namespace Part

/-- Leaving empty READY lists leaves them empty. -/
theorem leaveLists_empty {p : Part} (n : Fin 64) (empty : ∀ k : Fin 2, p.channels[k].ready = []) (k : Fin 2) :
    (p.leaveLists n).channels[k].ready = [] := by
  by_cases own : k = p.plates[n].copy.channel
  · subst own
    rw [Vector.get_of_eq_set (p.leaveLists_channels n), (Channel.follow_lists _).1]
    dsimp only
    rw [empty]
    rfl
  · rw [leaveLists_channels, Vector.set_other own]
    exact empty k

/-! ## A plate fails (R112, R115) -/

/-- The plate as it fails (R109, R112, R115). -/
def failedPlate (x : Plate) (cause : FailureCause) : Plate :=
  ({ x with state := .failed, cause := cause } : Plate).unpinned

section
variable (p : Part) (n : Fin 64) (cause : FailureCause)

theorem failState_plates : (p.failState n cause).plates = p.plates.set n (failedPlate p.plates[n] cause) := by
  have marked : (p.changePlate n fun x => { x with state := .failed, cause := cause }).plates
    = p.plates.set n { p.plates[n] with state := .failed, cause := cause } := rfl
  have left := (p.changePlate n fun x => { x with state := .failed, cause := cause }).leaveLists_only n
  unfold failState
  generalize (p.changePlate n fun x => { x with state := .failed, cause := cause }) = a at marked left ⊢
  have plates : (a.leaveLists n).plates = a.plates := left .plates (by simp)
  rw [unpinAll_plates, plates, marked, Vector.set_same, Vector.set_set]
  rfl

theorem failState_only :
    p.Only [.plates, .channels, .slots, .orphans, .reports, .mem, .port] (p.failState n cause) := by
  unfold failState
  exact (((Only.refl _ p).changePlate).trans ((leaveLists_only _ n).mono (by simp))).trans
    ((unpinAll_only _ n).mono (by simp))

theorem failState_ready (empty : ∀ k : Fin 2, p.channels[k].ready = []) (k : Fin 2) :
    (p.failState n cause).channels[k].ready = [] := by
  have left := (p.changePlate n fun x => { x with state := .failed, cause := cause }).leaveLists_empty n empty k
  unfold failState
  generalize (p.changePlate n fun x => { x with state := .failed, cause := cause }).leaveLists n = a at left ⊢
  have channels : (a.unpinAll n).channels = a.channels := a.unpinAll_only n .channels (by simp)
  rw [channels]
  exact left

variable (tail : List Byte)

theorem failPlate_plates : (p.failPlate n cause tail).plates = p.plates.set n (failedPlate p.plates[n] cause) :=
  (raise_plates _ _ _).trans ((plateStatus_plates _ _).trans (p.failState_plates n cause))

theorem failPlate_only :
    p.Only [.plates, .channels, .slots, .orphans, .reports, .mem, .port] (p.failPlate n cause tail) :=
  ((p.failState_only n cause).plateStatus).raise

theorem failPlate_channels : (p.failPlate n cause tail).channels = (p.failState n cause).channels :=
  (raise_channels _ _ _).trans (plateStatus_channels _ _)

end

/-! ## The arm deadline (R115) -/

section
variable {p : Part} {n : Fin 64} (armed : p.plates[n].state.armed = true) (set : p.plates[n].copy.deadline ≠ 0)
  (fresh : p.plates[n].deadlinePassed = false) (passed : 0 ≤ (p.tick - p.plates[n].copy.deadline).toInt)
  (first : ∀ m : Fin 64, m < n → p.plates[m].copy.deadline = p.plates[n].copy.deadline →
    p.plates[m].state.armed = false ∨ p.plates[m].deadlinePassed = true)
include armed set fresh passed first

/-- A deadline that is reached and has its turn. -/
theorem deadline_taken : (p.deadlineDue n && !p.deadlineBefore n) = true := by
  have due : p.deadlineDue n = true := by
    unfold deadlineDue
    dsimp only
    rw [armed, fresh, (reached_iff _ _).mpr passed, bne_iff_ne.mpr set]
    rfl
  have before : p.deadlineBefore n = false := by
    refine List.any_eq_false.mpr fun m _ lower => ?_
    simp only [Bool.and_eq_true, decide_eq_true_eq, beq_iff_eq] at lower
    obtain ⟨⟨below, duem⟩, same⟩ := lower
    unfold deadlineDue at duem
    simp only [Bool.and_eq_true, Bool.not_eq_true'] at duem
    obtain ⟨⟨⟨armed', -⟩, fresh'⟩, -⟩ := duem
    rcases first m below same with unarmed | done
    · exact nomatch unarmed.symm.trans armed'
    · exact nomatch done.symm.trans fresh'
  rw [due, before]
  rfl

theorem passDeadline_taken :
    p.passDeadline n
      = if ((p.changePlate n fun x => { x with deadlinePassed := true }).plateStatus n).plates[n].state = .waiting then
          (((p.changePlate n fun x => { x with deadlinePassed := true }).plateStatus n).deadlineAction n).feedAll
        else (p.changePlate n fun x => { x with deadlinePassed := true }).plateStatus n :=
  if_pos (deadline_taken armed set fresh passed first)

end

end Part

/-- Settles O9. -/
theorem armDeadlinePasses : Obligations.ArmDeadlinePasses := by
  refine ⟨fun s n up state set fresh passed first => ?listed,
    fun s n up waiting action set fresh passed lower empty => ?waits⟩
  case listed =>
    have armed : s.part.plates[n].state.armed = true := by
      rcases state with h | h | h <;> rw [h] <;> rfl
    have run : exec (.armDeadline n) s = .next { s with part := s.part.passDeadline n } := by
      rw [exec_armDeadline, onPart_up up]
    rw [Part.passDeadline_taken armed set fresh passed first] at run
    have only : s.part.Only [.plates, .mem, .port]
        ((s.part.changePlate n fun x => { x with deadlinePassed := true }).plateStatus n) :=
      ((Part.Only.refl _ _).changePlate).plateStatus
    have touches : s.part.Touches [plateRange n]
        ((s.part.changePlate n fun x => { x with deadlinePassed := true }).plateStatus n) :=
      ((Part.Touches.refl _ _).changePlate).plateStatus (by simp)
    have plates : ((s.part.changePlate n fun x => { x with deadlinePassed := true }).plateStatus n).plates
        = s.part.plates.set n { s.part.plates[n] with deadlinePassed := true } := Part.plateStatus_plates _ _
    generalize (s.part.changePlate n fun x => { x with deadlinePassed := true }).plateStatus n = q at *
    rw [if_neg] at run
    · exact ⟨_, run, plates, State.part_congr only.eq_pick, touches.kept⟩
    · rw [Vector.get_of_eq_set plates]
      rcases state with h | h | h <;> exact fun w => nomatch h.symm.trans w
  case waits =>
    have armed : s.part.plates[n].state.armed = true := by rw [waiting]; rfl
    have run : exec (.armDeadline n) s = .next { s with part := s.part.passDeadline n } := by
      rw [exec_armDeadline, onPart_up up]
    have keeps : s.part.Keeps (s.part.passDeadline n) := (Part.Keeps.refl _).passDeadline
    rw [Part.passDeadline_taken armed set fresh passed fun m below _ => Or.inl (lower m below)] at run keeps
    have only : s.part.Only [.plates, .mem, .port]
        ((s.part.changePlate n fun x => { x with deadlinePassed := true }).plateStatus n) :=
      ((Part.Only.refl _ _).changePlate).plateStatus
    have plates : ((s.part.changePlate n fun x => { x with deadlinePassed := true }).plateStatus n).plates
        = s.part.plates.set n { s.part.plates[n] with deadlinePassed := true } := Part.plateStatus_plates _ _
    generalize (s.part.changePlate n fun x => { x with deadlinePassed := true }).plateStatus n = a at *
    have plate := Vector.get_of_eq_set plates
    have channels : a.channels = s.part.channels := only .channels (by simp)
    have acts : a.deadlineAction n = a.failPlate n .deadline (a.deadlineTail n) := by
      rw [Part.deadlineAction, plate, action]
    have failed := (a.failPlate_plates n .deadline (a.deadlineTail n))
    have all := (only.mono (more := [.plates, .channels, .slots, .orphans, .reports, .mem, .port]) (by simp)).trans
      (a.failPlate_only n .deadline (a.deadlineTail n))
    have lists (k : Fin 2) : (a.failPlate n .deadline (a.deadlineTail n)).channels[k].ready = [] := by
      rw [Part.failPlate_channels]
      exact a.failState_ready n .deadline (fun k => by rw [channels]; exact empty k) k
    rw [if_pos (by rw [plate]; exact waiting), acts] at run keeps
    generalize a.failPlate n .deadline (a.deadlineTail n) = q at *
    rw [Part.feedAll_empty lists] at run keeps
    rw [plate, plates, Vector.set_set] at failed
    have own := Vector.get_of_eq_set failed
    refine ⟨_, run, by rw [own]; rfl, by rw [own]; rfl, by rw [own]; rfl, by rw [own]; rfl, fun k => ?_,
      fun m other => ?_,
      all .params (by simp), all .units (by simp), all .windows (by simp), all .filters (by simp),
      all .parsers (by simp), all .transit (by simp), all .sets (by simp), all .owners (by simp), rfl, rfl,
      keeps.owned⟩
    · rw [own, Part.failedPlate, Plate.unpinned]
      dsimp only
      rw [Fin.getElem_fin, Vector.getElem_map]
      rfl
    · rw [failed]
      exact Vector.set_other other

end Sys2Proof.Machine
end

section
/-! SUPPORT. CANCEL (R109, R120, R135). -/

namespace Sys2Proof.Machine

namespace Part

/-! ## Steps that change nothing -/

theorem unpinAll_free {p : Part} {n : Fin 64} (free : ∀ i : Fin 4, p.plates[n].res[i].pinned = false) :
    p.unpinAll n = p := by
  refine forEach_fixed fun i => ?_
  have unpinned : ¬ p.plates[n].res[i].pinned = true := by rw [free]; exact Bool.false_ne_true
  unfold unpin
  exact if_neg unpinned

/-- With no window CLOSING none ends (R175). -/
theorem endClosing_none {p : Part} {k : Fin 2} (none : ∀ w : Fin 16, p.windows[w].state ≠ .closing) :
    p.endClosing k = p := by
  refine forEach_fixed fun w => ?_
  dsimp only
  exact if_neg fun h => none w h.1

theorem changeChannel_same {p : Part} {k : Fin 2} {f : Channel → Channel} (same : f p.channels[k] = p.channels[k]) :
    p.changeChannel k f = p := by
  unfold changeChannel
  dsimp only
  rw [same, if_neg (by simp)]
  exact congrArg (fun v => { p with channels := v }) (Vector.set_getElem_self k.isLt)

theorem movedPlates_same (p : Part) : movedPlates p p = [] :=
  List.filter_eq_nil_iff.mpr fun n _ => by simp

/-- A plate that stands on no list leaves none, where the channel state follows the queue already (R113, R126). -/
theorem leaveLists_nowhere {p : Part} {n : Fin 64} {k : Fin 2} (own : p.channelOf n = k)
    (ready : p.channels[k].ready = []) (queue : n ∉ p.channels[k].queue)
    (fed : ¬ (p.channels[k].state = .idle ∧ p.channels[k].queue ≠ []))
    (primed : ¬ (p.channels[k].state = .primed ∧ p.channels[k].queue = [])) : p.leaveLists n = p := by
  subst own
  have same : p.channels[p.channelOf n].queue.filter (· != n) = p.channels[p.channelOf n].queue :=
    List.filter_eq_self.mpr fun m hm => bne_iff_ne.mpr fun e => queue (e ▸ hm)
  have steady : p.channels[p.channelOf n].follow = p.channels[p.channelOf n] := by
    unfold Channel.follow
    split
    · rename_i idle list
      exact absurd ⟨idle, list ▸ List.cons_ne_nil _ _⟩ fed
    · rename_i state list
      exact absurd ⟨state, list⟩ primed
    · rfl
  have unchanged : ({ p.channels[p.channelOf n] with
      ready := p.channels[p.channelOf n].ready.filter (· != n)
      queue := p.channels[p.channelOf n].queue.filter (· != n) } : Channel).follow = p.channels[p.channelOf n] := by
    rw [same, ready, List.filter_nil, ← ready]
    exact steady
  unfold leaveLists setLists
  dsimp only
  rw [changeChannel_same unchanged, movedPlates_same]
  rfl

/-- The slots as the plate's pins are released, where the work before it left the slots and the resolutions. -/
theorem unpinAll_slots_of {p a : Part} {n : Fin 64} (slots : a.slots = p.slots)
    (res : a.plates[n].res = p.plates[n].res) :
    (∀ m : Fin 512, (∀ i : Fin 4, ¬ p.pinsSlot n m i) → (a.unpinAll n).slots[m] = p.slots[m])
      ∧ ∀ (m : Fin 512) (i : Fin 4), p.pinsSlot n m i → p.pinsAlone n m i →
          pinReleased p.slots[m] (a.unpinAll n).slots[m] := by
  have pins (m : Fin 512) (i : Fin 4) : a.pinsSlot n m i ↔ p.pinsSlot n m i := by
    rw [pinsSlot, res, pinsSlot]
  refine ⟨fun m others => ?_, fun m i pinned alone => ?_⟩
  · rw [unpinAll_slot_other fun i h => others i ((pins m i).mp h), slots]
  · rw [← slots]
    exact unpinAll_slot ((pins m i).mpr pinned) fun j other h => alone j other ((pins m j).mp h)

/-- Plate `n` has become `y`, with its pins released (R109). -/
structure Unpins (p : Part) (n : Fin 64) (y : Plate) (q : Part) : Prop where
  plates : q.plates = p.plates.set n y.unpinned
  others : ∀ m : Fin 512, (∀ i : Fin 4, ¬ p.pinsSlot n m i) → q.slots[m] = p.slots[m]
  alone : ∀ (m : Fin 512) (i : Fin 4), p.pinsSlot n m i → p.pinsAlone n m i → pinReleased p.slots[m] q.slots[m]
  quiet : (∀ i : Fin 4, p.plates[n].res[i].pinned = false) → p.Quiet q

theorem unpinAll_unpins {p a : Part} {n : Fin 64} {y : Plate} (plates : a.plates = p.plates.set n y)
    (res : y.res = p.plates[n].res) (slots : a.slots = p.slots) (quiet : p.Quiet a) : p.Unpins n y (a.unpinAll n) := by
  have plate := Vector.get_of_eq_set plates
  obtain ⟨others, alone⟩ := unpinAll_slots_of slots (show a.plates[n].res = p.plates[n].res by rw [plate, res])
  refine ⟨?_, others, alone, fun free => ?_⟩
  · rw [unpinAll_plates, plate, plates, Vector.set_set]
  · rw [unpinAll_free fun i => by rw [plate, res]; exact free i]
    exact quiet

theorem Quiet.trans {p q r : Part} (h : p.Quiet q) (g : q.Quiet r) : p.Quiet r :=
  ⟨g.cabase.trans h.cabase, g.params.trans h.params, g.sweep.trans h.sweep, g.tick.trans h.tick,
    g.reports.trans h.reports⟩

/-- Work after the pins that writes neither plates, slots nor reports. -/
theorem Unpins.step {p q r : Part} {n : Fin 64} {y : Plate} (h : p.Unpins n y q) (plates : r.plates = q.plates)
    (slots : r.slots = q.slots) (quiet : q.Quiet r) : p.Unpins n y r :=
  ⟨plates.trans h.plates, fun m others => by rw [slots]; exact h.others m others,
    fun m i pinned alone => by rw [slots]; exact h.alone m i pinned alone, fun free => (h.quiet free).trans quiet⟩

/-- A CANCEL of a WAITING plate that stands on no list. -/
theorem cancelOpen_waiting {p : Part} {n : Fin 64} (waiting : p.plates[n].state = .waiting)
    (ready : p.channels[p.plates[n].copy.channel].ready = [])
    (queue : n ∉ p.channels[p.plates[n].copy.channel].queue)
    (fed : ¬ (p.channels[p.plates[n].copy.channel].state = .idle ∧ p.channels[p.plates[n].copy.channel].queue ≠ []))
    (primed : ¬ (p.channels[p.plates[n].copy.channel].state = .primed
      ∧ p.channels[p.plates[n].copy.channel].queue = [])) :
    p.cancelOpen n = (p.changePlate n fun x => { x with state := .cancelled }).unpinAll n := by
  have plates : (p.changePlate n fun x => { x with state := .cancelled }).plates
    = p.plates.set n { p.plates[n] with state := .cancelled } := rfl
  have channelIs : (p.changePlate n fun x => { x with state := .cancelled }).channelOf n
      = p.plates[n].copy.channel := by
    rw [channelOf, Vector.get_of_eq_set plates]
  have channels : (p.changePlate n fun x => { x with state := .cancelled }).channels = p.channels := rfl
  unfold cancelOpen
  dsimp only
  generalize (p.changePlate n fun x => { x with state := .cancelled }) = a at channelIs channels
  rw [leaveLists_nowhere channelIs (by rw [channels]; exact ready) (by rw [channels]; exact queue)
    (by rw [channels]; exact fed) (by rw [channels]; exact primed), waiting, if_neg (by decide)]

theorem cancelOpen_unpins {p : Part} {n : Fin 64} (waiting : p.plates[n].state = .waiting)
    (ready : p.channels[p.plates[n].copy.channel].ready = [])
    (queue : n ∉ p.channels[p.plates[n].copy.channel].queue)
    (fed : ¬ (p.channels[p.plates[n].copy.channel].state = .idle ∧ p.channels[p.plates[n].copy.channel].queue ≠ []))
    (primed : ¬ (p.channels[p.plates[n].copy.channel].state = .primed
      ∧ p.channels[p.plates[n].copy.channel].queue = [])) :
    p.Unpins n { p.plates[n] with state := .cancelled } (p.cancelOpen n)
      ∧ p.Only [.plates, .slots, .orphans, .reports, .mem, .port] (p.cancelOpen n) := by
  have only : p.Only [.plates] (p.changePlate n fun x => { x with state := .cancelled }) := (Only.refl _ _).changePlate
  have plates : (p.changePlate n fun x => { x with state := .cancelled }).plates
    = p.plates.set n { p.plates[n] with state := .cancelled } := rfl
  rw [cancelOpen_waiting waiting ready queue fed primed]
  generalize (p.changePlate n fun x => { x with state := .cancelled }) = a at only plates ⊢
  exact ⟨unpinAll_unpins plates rfl (only .slots (by simp)) only.quiet,
    (only.mono (by simp)).trans (a.unpinAll_only n)⟩

/-! ## The composer's part (R135) -/

section
variable (p : Part) (k : Fin 2) (n : Fin 64)

theorem leaveExposing_channels (next : List (Fin 64) → ChannelState) :
    (p.leaveExposing k n next).channels = p.channels.set k { p.channels[k] with
      queue := p.channels[k].queue.filter (· != n)
      state := next (p.channels[k].queue.filter (· != n))
      idlePending := p.channels[k].idlePending || next (p.channels[k].queue.filter (· != n)) == .idle } :=
  (plateStatuses_only _ _ .channels (by simp)).trans (p.changeChannel_channels k _)

theorem leaveExposing_only (next : List (Fin 64) → ChannelState) :
    p.Only [.channels, .mem, .port] (p.leaveExposing k n next) :=
  ((Only.refl _ p).changeChannel).trans ((plateStatuses_only _ _).mono (by simp))

theorem dropUse_only : p.Only [.sets, .mem, .port] (p.dropUse n) := ((Only.refl _ p).setSet).statusWrite

theorem dropUse_sets {i : Fin 8} (own : p.plates[n].copy.screenSet = i) :
    (p.dropUse n).sets = p.sets.set i { p.sets[i] with use := p.sets[i].use - 1 } := by
  subst own
  exact statusWrite_sets _ _

/-- The block in hand as a CANCEL leaves it. -/
theorem holdBlock_channels :
    (p.holdBlock k).channels
      = p.channels.set k { p.channels[k] with inHand := p.channels[k].inHand.map (p.cancelledBlock k) } := by
  unfold holdBlock
  split
  · rename_i none
    rw [none, Option.map_none, ← none]
    exact (Vector.set_getElem_self k.isLt).symm
  · rename_i h held
    rw [held]
    rfl

theorem holdBlock_only : p.Only [.channels] (p.holdBlock k) := by
  unfold holdBlock
  split
  · exact Only.refl _ p
  · exact (Only.refl _ p).setChannel

theorem releaseComposer_only : p.Only [.sets, .channels, .mem, .port] (p.releaseComposer k n) := by
  unfold releaseComposer
  split
  · exact ((dropUse_only p n).mono (by simp)).setChannel
  · exact Only.refl _ p

theorem releaseComposer_channels :
    (p.releaseComposer k n).channels = p.channels.set k
      { p.channels[k] with cursors := if p.channels[k].inHand = none then [] else p.channels[k].cursors } := by
  unfold releaseComposer
  split
  · rename_i free
    have channels : (p.dropUse n).channels = p.channels := dropUse_only p n .channels (by simp)
    rw [if_pos free]
    unfold dropCursors setChannel
    dsimp only
    rw [channels]
  · rename_i h held
    rw [if_neg (by rw [held]; exact Option.some_ne_none h)]
    exact (Vector.set_getElem_self k.isLt).symm

theorem releaseComposer_sets {i : Fin 8} (own : p.plates[n].copy.screenSet = i) :
    (p.releaseComposer k n).sets = if p.channels[k].inHand = none then
      p.sets.set i { p.sets[i] with use := p.sets[i].use - 1 }
      else p.sets := by
  unfold releaseComposer
  split
  · rename_i free
    rw [if_pos free]
    exact p.dropUse_sets n own
  · rename_i h held
    rw [if_neg (by rw [held]; exact Option.some_ne_none h)]

end

/-- The EXPOSING plate as a CANCEL leaves it, but for its pins (R114, R120). -/
def cancelledPlate (p : Part) (n : Fin 64) : Plate :=
  { p.plates[n] with
    state := .cancelled
    summary := { p.plates[n].summary with
      endTick := p.tick, checksum := ~~~ p.channels[p.channelOf n].checksum, valid := false } }

/-- Its channel as a CANCEL leaves it (R126, R135). -/
def cancelledChannel (p : Part) (k : Fin 2) (n : Fin 64) : Channel :=
  { p.channels[k] with
    state := .draining
    queue := p.channels[k].queue.filter (· != n)
    inHand := p.channels[k].inHand.map (p.cancelledBlock k)
    cursors := if p.channels[k].inHand = none then [] else p.channels[k].cursors }

theorem cancelledChannel_congr {p q : Part} {k : Fin 2} {n : Fin 64} (channels : q.channels = p.channels)
    (slots : q.slots = p.slots) : q.cancelledChannel k n = p.cancelledChannel k n := by
  have held : q.cancelledBlock k = p.cancelledBlock k := by
    funext h
    unfold cancelledBlock
    rw [channels, snapshot_congr slots]
  rw [cancelledChannel, held, channels, cancelledChannel]

/-- A prepared block in hand is composed after the CANCEL as before it (R135, R138). -/
theorem compose_cancelled {p q : Part} {k : Fin 2} {n : Fin 64} {h h' : InHand}
    (channels : q.channels = p.channels.set k (p.cancelledChannel k n))
    (sets : p.channels[k].inHand ≠ none → q.sets = p.sets) (held : p.channels[k].inHand = some h)
    (prepared : h.prepared = true) (live : h.live = true) (left : q.channels[k].inHand = some h') (t : TileMemory) :
    q.compose k h' t = p.compose k h t := by
  have busy : p.channels[k].inHand ≠ none := held ▸ Option.some_ne_none h
  have own := Vector.get_of_eq_set channels
  have block : h' = p.cancelledBlock k h := by
    rw [own, cancelledChannel, held] at left
    exact (Option.some.inj left).symm
  have composed : h'.live = false ∧ h'.stage = .composition := by
    rw [block]
    unfold cancelledBlock
    rw [if_pos prepared]
    exact ⟨rfl, rfl⟩
  have cursors : q.channels[k].cursors = p.channels[k].cursors := by
    rw [own]
    exact if_neg busy
  rw [compose_congr t composed.1 composed.2 cursors (by rw [sets busy]), block]
  exact p.compose_cancelledBlock k h t live prepared

/-- The steps of a CANCEL of the EXPOSING plate up to the windows that are CLOSING, on the channel `k`. -/
def cancelSteps (p : Part) (k : Fin 2) (n : Fin 64) : Part :=
  (((p.holdBlock k).leaveExposing k n fun _ => .draining).unpinAll n).releaseComposer k n

section
variable {p : Part} {n : Fin 64} {k : Fin 2}

theorem cancelSteps_only :
    p.Only [.plates, .channels, .sets, .slots, .orphans, .reports, .mem, .port] (p.cancelSteps k n) :=
  ((((p.holdBlock_only k).mono (by simp)).trans ((leaveExposing_only _ k n _).mono (by simp))).trans
    ((unpinAll_only _ n).mono (by simp))).trans ((releaseComposer_only _ k n).mono (by simp))

theorem cancelSteps_channels : (p.cancelSteps k n).channels = p.channels.set k (p.cancelledChannel k n) := by
  have held := p.holdBlock_channels k
  unfold cancelSteps
  generalize p.holdBlock k = a at held
  have left := a.leaveExposing_channels k n fun _ => .draining
  have own : (a.leaveExposing k n fun _ => .draining).channels = p.channels.set k
      { p.channels[k] with
        state := .draining
        queue := p.channels[k].queue.filter (· != n)
        inHand := p.channels[k].inHand.map (p.cancelledBlock k)
        idlePending := p.channels[k].idlePending || false } := by
    rw [left, Vector.get_of_eq_set held, held, Vector.set_set]
    rfl
  rw [Bool.or_false] at own
  generalize (a.leaveExposing k n fun _ => .draining) = b at own
  have unpinned : (b.unpinAll n).channels = b.channels := unpinAll_only b n .channels (by simp)
  rw [own] at unpinned
  generalize b.unpinAll n = d at unpinned
  have released := d.releaseComposer_channels k n
  rw [released, Vector.get_of_eq_set unpinned, unpinned, Vector.set_set]
  simp only [Option.map_eq_none_iff]
  rfl

theorem cancelSteps_sets {i : Fin 8} (own : p.plates[n].copy.screenSet = i) :
    (p.cancelSteps k n).sets = if p.channels[k].inHand = none then
      p.sets.set i { p.sets[i] with use := p.sets[i].use - 1 }
      else p.sets := by
  have held := p.holdBlock_channels k
  have plates : (p.holdBlock k).plates = p.plates := p.holdBlock_only k .plates (by simp)
  have sets : (p.holdBlock k).sets = p.sets := p.holdBlock_only k .sets (by simp)
  unfold cancelSteps
  generalize p.holdBlock k = a at held plates sets
  have left := a.leaveExposing_channels k n fun _ => .draining
  have only := a.leaveExposing_only k n fun _ => .draining
  generalize (a.leaveExposing k n fun _ => .draining) = b at left only
  have unpinned := b.unpinAll_only n
  have plate := Vector.get_of_eq_set (b.unpinAll_plates n)
  generalize b.unpinAll n = d at unpinned plate
  have same : d.plates[n].copy.screenSet = i := by
    rw [plate, only .plates (by simp), plates]
    exact own
  have inHand : d.channels[k].inHand = p.channels[k].inHand.map (p.cancelledBlock k) := by
    rw [unpinned .channels (by simp), Vector.get_of_eq_set left, Vector.get_of_eq_set held]
  rw [releaseComposer_sets d k n same, inHand, unpinned .sets (by simp), only .sets (by simp), sets]
  simp only [Option.map_eq_none_iff]

theorem cancelSteps_unpins {a : Part} {y : Plate} (plates : a.plates = p.plates.set n y)
    (res : y.res = p.plates[n].res) (slots : a.slots = p.slots) (quiet : p.Quiet a) :
    p.Unpins n y (a.cancelSteps k n) := by
  have only : a.Only [.channels, .mem, .port] ((a.holdBlock k).leaveExposing k n fun _ => .draining) :=
    ((a.holdBlock_only k).mono (by simp)).trans (leaveExposing_only _ k n _)
  unfold cancelSteps
  generalize ((a.holdBlock k).leaveExposing k n fun _ => .draining) = b at only
  have unpins := unpinAll_unpins ((only .plates (by simp)).trans plates) res ((only .slots (by simp)).trans slots)
    (quiet.trans only.quiet)
  have released := releaseComposer_only (b.unpinAll n) k n
  exact unpins.step (released .plates (by simp)) (released .slots (by simp)) released.quiet

end

/-- A CANCEL of the EXPOSING plate with no window CLOSING. -/
theorem cancelExposing_steps {p : Part} {n : Fin 64} (none : ∀ w : Fin 16, p.windows[w].state ≠ .closing) :
    p.cancelExposing n = ((p.changePlate n fun _ => p.cancelledPlate n).cancelSteps (p.channelOf n) n) := by
  have windows : ((p.changePlate n fun _ => p.cancelledPlate n).cancelSteps (p.channelOf n) n).windows = p.windows :=
    cancelSteps_only .windows (by simp)
  have ended := endClosing_none (p := (p.changePlate n fun _ => p.cancelledPlate n).cancelSteps (p.channelOf n) n)
    (k := p.channelOf n) fun w => by rw [windows]; exact none w
  exact ended

theorem cancelExposing_spec {p : Part} {n : Fin 64} {k : Fin 2} {i : Fin 8}
    (own : p.channelOf n = k) (uses : p.plates[n].copy.screenSet = i)
    (none : ∀ w : Fin 16, p.windows[w].state ≠ .closing) :
    p.Unpins n (p.cancelledPlate n) (p.cancelExposing n)
      ∧ p.Only [.plates, .channels, .sets, .slots, .orphans, .reports, .mem, .port] (p.cancelExposing n)
      ∧ (p.cancelExposing n).channels = p.channels.set k (p.cancelledChannel k n)
      ∧ (p.cancelExposing n).sets = if p.channels[k].inHand = Option.none then
          p.sets.set i { p.sets[i] with use := p.sets[i].use - 1 } else p.sets := by
  have changed : p.Only [.plates] (p.changePlate n fun _ => p.cancelledPlate n) := (Only.refl _ _).changePlate
  have plates : (p.changePlate n fun _ => p.cancelledPlate n).plates = p.plates.set n (p.cancelledPlate n) := rfl
  have channels : (p.changePlate n fun _ => p.cancelledPlate n).channels = p.channels := rfl
  have slots : (p.changePlate n fun _ => p.cancelledPlate n).slots = p.slots := rfl
  have sets : (p.changePlate n fun _ => p.cancelledPlate n).sets = p.sets := rfl
  rw [cancelExposing_steps none, own]
  generalize (p.changePlate n fun _ => p.cancelledPlate n) = a at *
  refine ⟨cancelSteps_unpins plates rfl slots changed.quiet, (changed.mono (by simp)).trans cancelSteps_only, ?_, ?_⟩
  · rw [cancelSteps_channels, cancelledChannel_congr channels slots, channels]
  · rw [cancelSteps_sets (i := i) (by rw [Vector.get_of_eq_set plates]; exact uses), channels, sets]

/-! ## The end of a CANCEL (R120) -/

/-- PLATE_CANCELLED (R120, R207). -/
def cancelledSubject (x : Plate) (n : Fin 64) (st : PlateState) : Subject :=
  .plate { label := x.copy.label, plate := n.val, channel := x.copy.channel.val, cause := st.code }

/-- The status record, PLATE_CANCELLED and the result of a cancelled plate (R120). -/
def cancelDone (q : Part) (n : Fin 64) (st : PlateState) : Part :=
  ((q.plateStatus n).raise .plateCancelled (cancelledSubject q.plates[n] n st)).finish (.plate n) .done st.code

theorem doCancel_armed {p : Part} {n : Fin 64} (armed : p.plates[n].state.armed = true) :
    p.doCancel n = ((if p.plates[n].state = .exposing then p.cancelExposing n else p.cancelOpen n).cancelDone n
      p.plates[n].state).feed
        ((((if p.plates[n].state = .exposing then p.cancelExposing n else p.cancelOpen n).plateStatus n).raise
          .plateCancelled (cancelledSubject
            (if p.plates[n].state = .exposing then p.cancelExposing n else p.cancelOpen n).plates[n] n
              p.plates[n].state)).channelOf n) := by
  unfold doCancel
  dsimp only
  rw [if_pos armed]
  rfl

section
variable {q : Part} {n : Fin 64} {st : PlateState}

theorem cancelDone_only : q.Only [.reports, .units, .mem, .port] (q.cancelDone n st) :=
  (((Only.refl _ q).plateStatus).raise).finish

theorem cancelDone_reports :
    (q.cancelDone n st).reports = q.after .plateCancelled (cancelledSubject q.plates[n] n st) :=
  (finish_reports _ _ _ _).trans (((Only.refl [.mem, .port] q).plateStatus).quiet.raise_reports _ _)

theorem cancelDone_ended {p : Part} (units : q.units = p.units) (keeps : p.Keeps q) :
    p.ended (q.cancelDone n st) (.plate n) .done (BitVec.ofNat 32 st.code) :=
  finish_ended_of ((raise_units _ _ _).trans ((plateStatus_units _ _).trans units)) ((keeps.plateStatus).raise).cabase
    ((keeps.plateStatus).raise).wf

/-- With an empty READY list no plate follows (R112). -/
theorem doCancel_done {p : Part} (armed : p.plates[n].state.armed = true)
    (acts : (if p.plates[n].state = .exposing then p.cancelExposing n else p.cancelOpen n) = q)
    (copy : q.plates[n].copy = p.plates[n].copy) (empty : q.channels[p.plates[n].copy.channel].ready = []) :
    p.doCancel n = q.cancelDone n p.plates[n].state := by
  have channels : (q.cancelDone n p.plates[n].state).channels = q.channels := cancelDone_only .channels (by simp)
  have channelIs (x : Subject) : ((q.plateStatus n).raise .plateCancelled x).channelOf n
      = p.plates[n].copy.channel := by
    rw [channelOf, raise_plates, plateStatus_plates, copy]
  rw [doCancel_armed armed, acts, channelIs]
  exact feed_empty (by rw [channels]; exact empty)

end

end Part
/-- Settles O51. -/
theorem cancel : Obligations.Cancel := by
  intro s n runs x k c unpinned
  have run : exec (.cancel n) s = .next { s with part := s.part.doCancel n } := by
    rw [exec_cancel, onPart_runs runs]
  have kept : s.part.Keeps (s.part.doCancel n) := (Part.Keeps.refl _).doCancel
  refine ⟨fun unarmed => ?unarmed, fun waiting ready queue fed primed => ?waiting, fun exposing ready none => ?exposing⟩
  case unarmed =>
    have acts : s.part.doCancel n = s.part.finish (.plate n) .done x.state.code :=
      if_neg (by rw [unarmed]; exact Bool.false_ne_true)
    rw [acts] at run
    exact State.endsOnly_of_finish run
  case waiting =>
    have state : s.part.plates[n].state = .waiting := waiting
    have keeps : s.part.Keeps (s.part.cancelOpen n) := (Part.Keeps.refl _).cancelOpen
    obtain ⟨⟨plates, others, alone, quiet⟩, only⟩ := Part.cancelOpen_unpins waiting ready queue fed primed
    have own := Vector.get_of_eq_set plates
    have channels : (s.part.cancelOpen n).channels = s.part.channels := only .channels (by simp)
    have acts := Part.doCancel_done (p := s.part) (n := n) (by rw [state]; rfl) (if_neg (by rw [state]; decide))
      (by rw [own]; rfl) (by rw [channels]; exact ready)
    rw [acts] at run kept
    generalize s.part.cancelOpen n = q at *
    have done := Part.cancelDone_only (q := q) (n := n) (st := s.part.plates[n].state)
    have slots : (q.cancelDone n s.part.plates[n].state).slots = q.slots := done .slots (by simp)
    have all : s.part.Only [.plates, .slots, .orphans, .reports, .units, .mem, .port]
        (q.cancelDone n s.part.plates[n].state) := (only.mono (by simp)).trans (done.mono (by simp))
    have ended := Part.cancelDone_ended (n := n) (st := s.part.plates[n].state) (only .units (by simp)) keeps
    rw [state] at ended
    refine ⟨_, run, (done .plates (by simp)).trans plates, fun m apart => ?_, fun m i pinned slot single keeps => ?_,
      fun free => ?_, by rw [state]; exact ended, State.part_congr all.eq_pick, kept.owned⟩
    · dsimp only
      rw [slots]
      exact others m apart
    · dsimp only
      rw [slots]
      exact (alone m i ⟨pinned, slot⟩ single).1 keeps
    · refine Part.cancelDone_reports.trans ?_
      rw [(quiet free).after, own, state]
      rfl
  case exposing =>
    have state : s.part.plates[n].state = .exposing := exposing
    have keeps : s.part.Keeps (s.part.cancelExposing n) := (Part.Keeps.refl _).cancelExposing
    obtain ⟨⟨plates, others, alone, quiet⟩, only, channels, sets⟩ :=
      Part.cancelExposing_spec (p := s.part) (n := n) (k := k) rfl rfl none
    have own := Vector.get_of_eq_set plates
    have acts := Part.doCancel_done (p := s.part) (n := n) (by rw [state]; rfl) (if_pos state)
      (by rw [own]; rfl) ((congrArg Channel.ready (Vector.get_of_eq_set channels)).trans ready)
    rw [acts] at run kept
    generalize s.part.cancelExposing n = q at *
    have done := Part.cancelDone_only (q := q) (n := n) (st := s.part.plates[n].state)
    have all : s.part.Only [.plates, .channels, .sets, .slots, .orphans, .reports, .units, .mem, .port]
        (q.cancelDone n s.part.plates[n].state) := (only.mono (by simp)).trans (done.mono (by simp))
    have ended := Part.cancelDone_ended (n := n) (st := s.part.plates[n].state) (only .units (by simp)) keeps
    have left := (done .channels (by simp)).trans channels
    have released := (done .sets (by simp)).trans sets
    rw [state] at ended
    refine ⟨_, run, (done .plates (by simp)).trans plates, left, fun h h' held prepared live after => ?_,
      released, fun free => ?_, by rw [state]; exact ended, State.part_congr all.eq_pick, kept.owned⟩
    · exact Part.compose_cancelled left (fun busy => released.trans (if_neg busy)) held prepared live after s.tiles
    · refine Part.cancelDone_reports.trans ?_
      rw [(quiet free).after, own, state]
      rfl

end Sys2Proof.Machine
end

section
/-! SUPPORT. The checks of ARM (R105). -/

namespace Sys2Proof.Machine

/-! ## Placements and their frames -/

/-- A placement's fields pass check 11. -/
def PlacementFields.fits (q : PlacementFields) (f : PlateFields) : Prop :=
  1 ≤ q.page ∧ q.page ≤ 999 ∧ q.rotation ≤ 1 ∧ 1 ≤ q.frameW ∧ 1 ≤ q.frameH ∧ q.x0 + q.frameW ≤ f.width
    ∧ q.y0 + q.frameH ≤ f.height

/-- Two frames share no pixel. -/
def framesApart (a b : PlacementFields) : Prop :=
  a.x0 + a.frameW ≤ b.x0 ∨ b.x0 + b.frameW ≤ a.x0 ∨ a.y0 + a.frameH ≤ b.y0 ∨ b.y0 + b.frameH ≤ a.y0

/-- No pixel is shared by the frames of two placements, if both exist. -/
def PlateFields.apart (f : PlateFields) (i j : Nat) : Prop :=
  ∀ a b, f.placements[i]? = some a → f.placements[j]? = some b → framesApart a b

theorem PlacementFields.valid_iff (q : PlacementFields) (f : PlateFields) :
    q.valid f.width f.height = true ↔ q.fits f := by
  simp only [valid, fits, Bool.and_eq_true, decide_eq_true_iff, and_assoc]

theorem framesMeet_iff (a b : PlacementFields) : framesMeet a b = true ↔ ¬ framesApart a b := by
  rw [framesMeet, Bool.and_eq_true, rangesMeet_iff, rangesMeet_iff, framesApart]
  omega

/-- The test of check 12 on one pair. -/
def pairMeets (qs : List PlacementFields) (x : Nat × Nat) : Bool :=
  match qs[x.1]?, qs[x.2]? with
  | some a, some b => framesMeet a b
  | _, _ => false

theorem framesOverlap_eq (qs : List PlacementFields) : framesOverlap qs = placementPairs.find? (pairMeets qs) := rfl

theorem pairMeets_iff (f : PlateFields) (i j : Nat) : pairMeets f.placements (i, j) = true ↔ ¬ f.apart i j := by
  unfold pairMeets PlateFields.apart
  dsimp only
  cases f.placements[i]? with
  | none => simp
  | some a =>
    cases f.placements[j]? with
    | none => simp
    | some b => simp [framesMeet_iff]

/-- A search of a list that ascends finds the least element that meets the test. -/
theorem List.find?_least {α : Type} {l : List α} {test : α → Bool} {x : α} {less : α → α → Prop} (mem : x ∈ l)
    (hit : test x = true) (sorted : l.Pairwise less) (before : ∀ y ∈ l, less y x → test y = false) :
    l.find? test = some x := by
  obtain ⟨first, rest, rfl⟩ := List.append_of_mem mem
  obtain ⟨-, -, lower⟩ := List.pairwise_append.mp sorted
  refine List.find?_eq_some_iff_append.mpr ⟨hit, first, rest, rfl, fun y hy => ?_⟩
  rw [before y (List.mem_append_left _ hy) (lower y hy x List.mem_cons_self)]
  rfl

theorem mem_placementPairs {i j : Nat} : (i, j) ∈ placementPairs ↔ i < j ∧ j < 4 := by
  simp only [placementPairs, List.mem_cons, Prod.mk.injEq, List.not_mem_nil, or_false]
  omega

/-- The pairs ascend by the lower number, then by the higher. -/
theorem placementPairs_sorted :
    placementPairs.Pairwise fun x y => x.1 < y.1 ∨ (x.1 = y.1 ∧ x.2 < y.2) := by decide

theorem framesOverlap_first {f : PlateFields} {i j : Nat} (ascend : i < j) (four : f.placements.length ≤ 4)
    (meets : ¬ f.apart i j)
    (before : ∀ i' j', i' < j' → i' < i ∨ (i' = i ∧ j' < j) → f.apart i' j') :
    framesOverlap f.placements = some (i, j) := by
  have inside : j < 4 := by
    by_contra beyond
    refine meets fun a b _ second => ?_
    rw [List.getElem?_eq_none (by omega)] at second
    exact nomatch second
  rw [framesOverlap_eq]
  refine List.find?_least (mem_placementPairs.mpr ⟨ascend, inside⟩) ((pairMeets_iff f i j).mpr meets)
    placementPairs_sorted fun y member lower => ?_
  exact eq_false_of_ne_true fun h => (pairMeets_iff f _ _).mp h (before y.1 y.2 (mem_placementPairs.mp member).1 lower)

theorem framesOverlap_none {f : PlateFields} (apart : ∀ i j, i < j → f.apart i j) :
    framesOverlap f.placements = none := by
  rw [framesOverlap_eq]
  exact List.find?_eq_none.mpr fun y member h =>
    (pairMeets_iff f _ _).mp h (apart y.1 y.2 (mem_placementPairs.mp member).1)

theorem PlateFields.apart_of_pairwise {f : PlateFields} (pairwise : f.placements.Pairwise framesApart) {i j : Nat}
    (ascend : i < j) : f.apart i j := by
  intro a b first second
  obtain ⟨i', first⟩ := List.getElem?_eq_some_iff.mp first
  obtain ⟨j', second⟩ := List.getElem?_eq_some_iff.mp second
  rw [← first, ← second]
  exact List.pairwise_iff_getElem.mp pairwise i j i' j' ascend

theorem parsePlate_placements (bs : List Byte) : (parsePlate bs).placements.length = min (parsePlate bs).count 4 := by
  simp [parsePlate]

/-! ## Codes of policies -/

theorem holdPolicy?_known {n : Nat} (known : n = 1 ∨ n = 2) : ∃ policy, holdPolicy? n = some policy := by
  rcases known with rfl | rfl
  · exact ⟨_, rfl⟩
  · exact ⟨_, rfl⟩

theorem deadlineAction?_known {n : Nat} (known : n = 1 ∨ n = 2) : ∃ action, deadlineAction? n = some action := by
  rcases known with rfl | rfl
  · exact ⟨_, rfl⟩
  · exact ⟨_, rfl⟩

theorem holdPolicy?_unknown {n : Nat} (one : n ≠ 1) (two : n ≠ 2) : holdPolicy? n = none := by
  unfold holdPolicy?
  split
  · exact absurd rfl one
  · exact absurd rfl two
  · rfl

theorem deadlineAction?_unknown {n : Nat} (one : n ≠ 1) (two : n ≠ 2) : deadlineAction? n = none := by
  unfold deadlineAction?
  split
  · exact absurd rfl one
  · exact absurd rfl two
  · rfl

namespace Part

section
variable {p : Part} {n : Fin 64} {f : PlateFields} {copy : PlateRecord}

/-! ## Checks 1 to 10 -/

theorem armCheck_armed (armed : p.plates[n].state.armed = true) :
    p.armCheck n f = .refused .inUse p.plates[n].state.code := if_pos armed

variable (unarmed : p.plates[n].state.armed = false)
include unarmed

theorem armCheck_count (bad : f.count < 1 ∨ 4 < f.count) : p.armCheck n f = .refused .badParam 1 := by
  rw [armCheck, if_neg (ne_true_of_eq_false unarmed), if_pos bad]

variable (count : 1 ≤ f.count ∧ f.count ≤ 4)
include count

theorem armCheck_channel (bad : 1 < f.channel) : p.armCheck n f = .refused .badParam 2 := by
  rw [armCheck, if_neg (ne_true_of_eq_false unarmed), if_neg (by omega), if_pos bad]

variable (channel : f.channel ≤ 1)
include channel

theorem armCheck_sep (bad : 3 < f.sep) : p.armCheck n f = .refused .badParam 3 := by
  rw [armCheck, if_neg (ne_true_of_eq_false unarmed), if_neg (by omega), if_neg (by omega), if_pos bad]

variable (sep : f.sep ≤ 3)
include sep

theorem armCheck_width (bad : f.width % 512 ≠ 0 ∨ f.width < 512 ∨ 32768 < f.width) :
    p.armCheck n f = .refused .badParam 4 := by
  rw [armCheck, if_neg (ne_true_of_eq_false unarmed), if_neg (by omega), if_neg (by omega), if_neg (by omega),
    if_pos bad]

variable (width : f.width % 512 = 0 ∧ 512 ≤ f.width ∧ f.width ≤ 32768)
include width

theorem armCheck_height (bad : f.height < 1 ∨ 32768 < f.height) : p.armCheck n f = .refused .badParam 5 := by
  rw [armCheck, if_neg (ne_true_of_eq_false unarmed), if_neg (by omega), if_neg (by omega), if_neg (by omega),
    if_neg (by omega), if_pos bad]

variable (height : 1 ≤ f.height ∧ f.height ≤ 32768)
include height

theorem armCheck_set (bad : 7 < f.screenSet) : p.armCheck n f = .refused .badParam 6 := by
  rw [armCheck, if_neg (ne_true_of_eq_false unarmed), if_neg (by omega), if_neg (by omega), if_neg (by omega),
    if_neg (by omega), if_neg (by omega), if_pos bad]

variable (set : f.screenSet ≤ 7)
include set

theorem armCheck_hold (bad : holdPolicy? f.hold = none) : p.armCheck n f = .refused .badParam 7 := by
  rw [armCheck, if_neg (ne_true_of_eq_false unarmed), if_neg (by omega), if_neg (by omega), if_neg (by omega),
    if_neg (by omega), if_neg (by omega), if_neg (by omega), bad]

variable {policy : HoldPolicy} (hold : holdPolicy? f.hold = some policy)
include hold

theorem armCheck_action (bad : deadlineAction? f.action = none) : p.armCheck n f = .refused .badParam 8 := by
  rw [armCheck, if_neg (ne_true_of_eq_false unarmed), if_neg (by omega), if_neg (by omega), if_neg (by omega),
    if_neg (by omega), if_neg (by omega), if_neg (by omega), hold, bad]

variable {action : DeadlineAction} (act : deadlineAction? f.action = some action)
include act

theorem armCheck_policies :
    p.armCheck n f
      = if f.height ≤ f.mark then .refused .badParam 9 else p.armPlacements f (f.record policy action) := by
  rw [armCheck, if_neg (ne_true_of_eq_false unarmed), if_neg (by omega), if_neg (by omega), if_neg (by omega),
    if_neg (by omega), if_neg (by omega), if_neg (by omega), hold, act]

end

/-! ## Checks 11 to 14 -/

section
variable {p : Part} {f : PlateFields} {copy : PlateRecord}

theorem armPlacements_unfit {k : Nat} {q : PlacementFields} (at_ : f.placements[k]? = some q) (unfit : ¬ q.fits f)
    (before : ∀ j q', j < k → f.placements[j]? = some q' → q'.fits f) :
    p.armPlacements f copy = .refused .badParam (16 + k) := by
  obtain ⟨inside, here⟩ := List.getElem?_eq_some_iff.mp at_
  have found : (f.placements.findIdx? fun q => !q.valid f.width f.height) = some k := by
    refine List.findIdx?_eq_some_iff_getElem.mpr ⟨inside, ?_, fun j lower => ?_⟩
    · rw [here, eq_false_of_ne_true (mt (q.valid_iff f).mp unfit)]
      rfl
    · rw [(PlacementFields.valid_iff _ f).mpr (before j _ lower (List.getElem?_eq_getElem (lower.trans inside)))]
      exact Bool.false_ne_true
  unfold armPlacements
  rw [found]

variable (fit : ∀ q ∈ f.placements, q.fits f)
include fit

theorem placements_fit : (f.placements.findIdx? fun q => !q.valid f.width f.height) = none := by
  refine List.findIdx?_eq_none_iff.mpr fun q member => ?_
  rw [(q.valid_iff f).mpr (fit q member)]
  rfl

theorem armPlacements_overlap {i j : Nat} (overlap : framesOverlap f.placements = some (i, j)) :
    p.armPlacements f copy = .refused .overlap (i + 256 * j) := by
  unfold armPlacements
  rw [placements_fit fit, overlap]
  rfl

theorem armPlacements_apart (apart : framesOverlap f.placements = none) :
    p.armPlacements f copy
      = if p.hasWindow f.channel copy.needs = false then .refused .badParam 10
        else if p.sets[copy.screenSet].state ≠ .loaded then .refused .noScreen p.sets[copy.screenSet].state.code
        else .accepted copy := by
  unfold armPlacements
  rw [placements_fit fit, apart]

end

/-- An ACTIVE plate window of the channel, of at least this size (R105, check 13). -/
def servesPlate (p : Part) (channel size : Nat) (m : Fin 16) : Prop :=
  p.windows[m].state = .active ∧ p.windows[m].cls = some .plate ∧ p.windows[m].binding = channel
    ∧ size ≤ p.windows[m].size

theorem hasWindow_iff {p : Part} {channel size : Nat} :
    p.hasWindow channel size = true ↔ ∃ m, p.servesPlate channel size m := by
  have serves (m : Fin 16) : p.servesPlate channel size m ↔
      (p.windows[m].state == .active && p.windows[m].cls == some .plate && p.windows[m].binding == channel
        && decide (size ≤ p.windows[m].size)) = true := by
    simp only [servesPlate, Bool.and_eq_true, beq_iff_eq, decide_eq_true_iff, and_assoc]
  unfold hasWindow
  constructor
  · intro found
    by_contra missing
    rw [findWindow_none fun m => eq_false_of_ne_true fun h => missing ⟨m, (serves m).mpr h⟩] at found
    exact nomatch found
  · rintro ⟨m, hit⟩
    unfold findWindow
    rw [Option.isSome_map, List.find?_isSome]
    exact ⟨_, mem_numbered p.windows m, (serves m).mp hit⟩

end Part
end Sys2Proof.Machine
end

section
/-! SUPPORT. ARM (R105, R106): its refusals, and a plate none of whose pages is in the directory. -/

namespace Sys2Proof.Machine

namespace Part

/-- A plate record that ARM accepts (R105). -/
theorem armCheck_accepted {p : Part} {n : Fin 64} {f : PlateFields} {policy : HoldPolicy} {action : DeadlineAction}
    (armable : p.armable n f policy action) : p.armCheck n f = .accepted (f.record policy action) := by
  obtain ⟨unarmed, one, four, channel, sep, w1, w2, w3, h1, h2, set, hold, act, mark, fit, pairwise, window, loaded⟩ :=
    armable
  have apart := framesOverlap_none fun i j => f.apart_of_pairwise pairwise
  have serves : p.hasWindow f.channel (f.record policy action).needs = true := hasWindow_iff.mpr window
  have screen : p.sets[(f.record policy action).screenSet].state = .loaded :=
    loaded (f.record policy action).screenSet (Nat.mod_eq_of_lt (by omega))
  rw [armCheck_policies unarmed ⟨one, four⟩ channel sep ⟨w1, w2, w3⟩ ⟨h1, h2⟩ set hold act, if_neg (not_le.mpr mark),
    armPlacements_apart fit apart, if_neg (by rw [serves]; decide), if_neg (not_not.mpr screen)]

section
variable {p : Part} {n : Fin 64} {copy : PlateRecord}

theorem doArm_refused {code : ResultCode} {detail : Nat}
    (check : p.armCheck n (parsePlate (p.copyOf (.plate n))) = .refused code detail) :
    p.doArm n = p.finish (.plate n) code detail := by
  rw [doArm, check]

theorem doArm_accepted (check : p.armCheck n (parsePlate (p.copyOf (.plate n))) = .accepted copy) :
    p.doArm n = (p.armPlate n copy).feedAll.finish (.plate n) .done
      (packBytes (p.armPlate n copy).feedAll.plates[n].resolved (p.armPlate n copy).feedAll.plates[n].state.code) := by
  rw [doArm, check]

/-- The plate as an accepted ARM begins with it (R106). -/
def newPlate (copy : PlateRecord) : Plate := { state := .waiting, copy := copy }

theorem armResolve_nowhere {xs : List (Fin 4 × Placement)}
    (nowhere : ∀ x ∈ xs, p.lookFor (p.plates[n].copy.identity x.2) x.2.version = none) :
    Part.armResolve n p xs = (p, []) := by
  induction xs with
  | nil => rfl
  | cons x rest ih =>
    have here : p.armPlacement n x = (p, none) := by
      rw [armPlacement, nowhere x List.mem_cons_self]
    rw [armResolve, here, ih fun y member => nowhere y (List.mem_cons_of_mem x member)]
    rfl

/-- A plate with a placement that is not resolved is not ready to run (R110). -/
theorem readyToRun_unresolved {x : Fin 4 × Placement} (member : x ∈ p.plates[n].copy.numberedPlacements)
    (unpinned : p.plates[n].res[x.1].pinned = false) : p.readyToRun n = false := by
  refine List.all_eq_false.mpr ⟨x, member, ?_⟩
  rw [resolvedWhole, unpinned]
  exact Bool.false_ne_true

theorem noResolution (k : Fin 4) : (Vector.replicate 4 ({} : Resolution))[k].pinned = false := by
  rw [Fin.getElem_fin, Vector.getElem_replicate]

/-- A plate whose deadline has not passed. -/
def untimed (x : Plate) : Plate := { x with deadlinePassed := false }

/-- An accepted ARM with no deadline and no mismatch, once its placements have been looked for. -/
theorem armPlate_untimed {a : Part} (never : copy.deadline = 0)
    (resolved : Part.armResolve n (p.setPlate n (newPlate copy)) copy.numberedPlacements = (a, [])) :
    p.armPlate n copy
      = (if (a.changePlate n untimed).readyToRun n then (a.changePlate n untimed).becomeReady n false
          else a.changePlate n untimed).plateStatus n := by
  have steps : Part.armResolve n (p.setPlate n { state := .waiting, copy := copy }) copy.numberedPlacements = (a, []) :=
    resolved
  have passed : ((0 : Word) != 0 && reached a.tick 0) = false := rfl
  unfold armPlate
  dsimp only
  rw [steps, never]
  dsimp only
  rw [passed, Bool.and_false, Bool.false_and]
  rfl

theorem armPlate_waits {x : Fin 4 × Placement} (member : x ∈ copy.numberedPlacements) (never : copy.deadline = 0)
    (nowhere : ∀ x ∈ copy.numberedPlacements, p.lookFor (copy.identity x.2) x.2.version = none) :
    p.armPlate n copy = ((p.setPlate n (newPlate copy)).changePlate n untimed).plateStatus n := by
  have plates : (p.setPlate n (newPlate copy)).plates = p.plates.set n (newPlate copy) := rfl
  have plate := Vector.get_of_eq_set plates
  have later : ((p.setPlate n (newPlate copy)).changePlate n untimed).plates[n] = newPlate copy :=
    Vector.get_of_eq_set (changePlate_set plates _)
  have unready : ((p.setPlate n (newPlate copy)).changePlate n untimed).readyToRun n = false :=
    readyToRun_unresolved (x := x) (by rw [later]; exact member) (by rw [later, newPlate]; exact noResolution x.1)
  rw [armPlate_untimed never (armResolve_nowhere fun x member => by rw [plate]; exact nowhere x member),
    if_neg (by rw [unready]; exact Bool.false_ne_true)]

end

/-! ## What a placement looks for (R107) -/

theorem current_inUse {x : Slot} (current : x.current = true) : x.inUse = true := by
  rw [Slot.inUse, bne_iff_ne]
  intro free
  rw [Slot.current, free] at current
  exact nomatch current

/-- Of an identity that no slot in use has, no version is found. -/
theorem lookFor_none {p : Part} {id : Identity} {version : Nat}
    (absent : ∀ m : Fin 512, p.slots[m].inUse = true → p.slots[m].id ≠ id) : p.lookFor id version = none := by
  unfold lookFor
  split
  · refine findSlot_none_of fun m => eq_false_of_ne_true fun hit => ?_
    rw [Bool.and_eq_true, beq_iff_eq] at hit
    exact absent m (current_inUse hit.1) hit.2
  · refine findSlot_none_of fun m => eq_false_of_ne_true fun hit => ?_
    rw [Bool.and_eq_true, Bool.and_eq_true, beq_iff_eq] at hit
    exact absent m hit.1.1 hit.1.2

section
variable {f : PlateFields} {policy : HoldPolicy} {action : DeadlineAction}

/-- A numbered placement of the internal copy comes from a placement of the record (R103). -/
theorem record_numbered {x : Fin 4 × Placement} (member : x ∈ (f.record policy action).numberedPlacements) :
    ∃ q ∈ f.placements, (f.record policy action).identity x.2
      = { edition := q.edition, zone := q.zone, page := q.page, sep := f.sep } := by
  have placed : x.2 ∈ (f.record policy action).placements := (List.of_mem_zip member).2
  obtain ⟨q, source, same⟩ := List.mem_map.mp placed
  refine ⟨q, source, ?_⟩
  rw [← same]
  rfl

theorem record_first {q : PlacementFields} {rest : List PlacementFields} (placements : f.placements = q :: rest) :
    ∃ x, (f.record policy action).numberedPlacements.head? = some (0, x) := by
  unfold PlateRecord.numberedPlacements PlateFields.record
  rw [placements, show List.finRange 4 = [0, 1, 2, 3] from rfl]
  exact ⟨_, rfl⟩

end

/-- A plate of which no page is in the directory waits (R106). -/
theorem armPlate_absent {p : Part} {n : Fin 64} {f : PlateFields} {policy : HoldPolicy} {action : DeadlineAction}
    (some : f.placements ≠ []) (never : f.deadline = 0)
    (absent : ∀ q ∈ f.placements, ∀ m : Fin 512, p.slots[m].inUse = true →
      p.slots[m].id ≠ { edition := q.edition, zone := q.zone, page := q.page, sep := f.sep }) :
    p.armPlate n (f.record policy action)
      = ((p.setPlate n (newPlate (f.record policy action))).changePlate n untimed).plateStatus n := by
  obtain ⟨q, rest, placements⟩ := List.exists_cons_of_ne_nil some
  obtain ⟨x, first⟩ := record_first (policy := policy) (action := action) placements
  refine armPlate_waits (List.mem_of_head? first) (by rw [PlateFields.record, never]; rfl) fun y member => ?_
  obtain ⟨r, source, identity⟩ := record_numbered member
  rw [identity]
  exact lookFor_none (absent r source)

/-- Nothing resolved: byte 0 of the result's detail is 0, and byte 1 the state WAITING (R106, R203). -/
theorem newPlate_detail (copy : PlateRecord) :
    packBytes (newPlate copy).resolved (newPlate copy).state.code = 256 := by
  have none : (newPlate copy).resolved = 0 := by simp [newPlate, Plate.resolved]
  have waiting : (newPlate copy).state.code = 1 := by rw [newPlate]; rfl
  rw [none, waiting]
  decide

end Part

theorem State.arm_run {s : State} {n : Fin 64} (runs : s.runs (.plate n) (some .arm)) :
    exec (.arm n) s = .next { s with part := s.part.doArm n } := by
  rw [exec_arm, onPart_runs runs]

theorem State.arm_refused {s : State} {n : Fin 64} (runs : s.runs (.plate n) (some .arm)) {code : ResultCode}
    {detail : Nat} (check : s.part.armCheck n (parsePlate (s.part.copyOf (.plate n))) = .refused code detail) :
    s.endsOnly (.arm n) (.plate n) code (BitVec.ofNat 32 detail) :=
  State.endsOnly_of_finish ((State.arm_run runs).trans (by rw [Part.doArm_refused check]))

/-- Settles O49. -/
theorem armWaits : Obligations.ArmWaits := by
  intro s n runs f
  have most : f.placements.length ≤ 4 := (parsePlate_placements _).trans_le (min_le_right _ _)
  refine ⟨fun armed => State.arm_refused runs (Part.armCheck_armed armed),
    fun policy action armable never nowhere empty => ?waits, ?refusals⟩
  case waits =>
    have run := State.arm_run runs
    have check := Part.armCheck_accepted armable
    obtain ⟨-, one, -⟩ := armable
    have some : f.placements ≠ [] := fun empty => by
      have length : f.placements.length = min f.count 4 := parsePlate_placements _
      rw [empty, List.length_nil] at length
      omega
    rw [Part.doArm_accepted check, Part.armPlate_absent some never nowhere] at run
    have plates : ((s.part.setPlate n (Part.newPlate (f.record policy action))).changePlate n Part.untimed).plates
      = s.part.plates.set n (Part.newPlate (f.record policy action)) := by
      rw [Part.changePlate_set (plates := s.part.plates) (x := Part.newPlate (f.record policy action)) rfl]
      rfl
    have only : s.part.Only [.plates] ((s.part.setPlate n (Part.newPlate (f.record policy action))).changePlate n
      Part.untimed) := ((Part.Only.refl _ _).setPlate).changePlate
    have touches : s.part.Touches [plateRange n] ((s.part.setPlate n (Part.newPlate (f.record policy action))
      ).changePlate n Part.untimed) := ((Part.Touches.refl _ _).setPlate).changePlate
    generalize (s.part.setPlate n (Part.newPlate (f.record policy action))).changePlate n Part.untimed = a at *
    have plates : (a.plateStatus n).plates = _ := (Part.plateStatus_plates _ _).trans plates
    have only := (only.mono (more := [.plates, .mem, .port]) (by simp)).plateStatus (n := n)
    have touches := touches.plateStatus (n := n) (by simp)
    generalize a.plateStatus n = q at *
    have channels : q.channels = s.part.channels := only .channels (by simp)
    rw [Part.feedAll_empty fun k => by rw [channels]; exact empty k, Vector.get_of_eq_set plates,
      Part.newPlate_detail] at run
    refine ⟨_, run, (Part.finish_plates _ _ _ _).trans plates,
      Part.finish_ended_of (only .units (by simp)) touches.cabase touches.wf, State.part_congr ?_,
      (touches.finish_plate (by simp)).kept⟩
    have all : s.part.Only [.plates, .units, .mem, .port] (q.finish (.plate n) .done 256) :=
      (only.mono (by simp)).finish
    exact all.eq_pick
  case refusals =>
    intro refused fits apart passed1 passed2 passed3 passed4 passed5 passed6 passed7 passed8 passed9 passed10 passed11
      passed12 window passed13
    have policies (h : passed9) : ∃ policy action, s.part.armCheck n f
        = if f.height ≤ f.mark then .refused .badParam 9 else s.part.armPlacements f (f.record policy action) := by
      obtain ⟨⟨⟨⟨⟨⟨⟨⟨unarmed, count⟩, channel⟩, sep⟩, width⟩, height⟩, set⟩, hold⟩, act⟩ := h
      obtain ⟨policy, hold⟩ := holdPolicy?_known hold
      obtain ⟨action, act⟩ := deadlineAction?_known act
      exact ⟨policy, action, Part.armCheck_policies unarmed count channel sep width height set hold act⟩
    have placements (h : passed10) : ∃ policy action, s.part.armCheck n f
        = s.part.armPlacements f (f.record policy action) := by
      obtain ⟨nine, mark⟩ := h
      obtain ⟨policy, action, check⟩ := policies nine
      exact ⟨policy, action, check.trans (if_neg (not_le.mpr mark))⟩
    have windows (h : passed12) : ∃ policy action, s.part.armCheck n f = 
        if s.part.hasWindow f.channel (f.record policy action).needs = false then .refused .badParam 10
        else if s.part.sets[(f.record policy action).screenSet].state ≠ .loaded then
          .refused .noScreen s.part.sets[(f.record policy action).screenSet].state.code
        else .accepted (f.record policy action) := by
      obtain ⟨⟨ten, fit⟩, apart⟩ := h
      obtain ⟨policy, action, check⟩ := placements ten
      exact ⟨policy, action, check.trans (Part.armPlacements_apart fit (framesOverlap_none apart))⟩
    refine ⟨fun one bad => ?_, fun two bad => ?_, fun three bad => ?_, fun four bad => ?_, fun five bad => ?_,
      fun six bad => ?_, fun seven one two => ?_, fun eight one two => ?_, fun nine bad => ?_,
      fun ten k q here unfit before => ?_, fun eleven i j ascend meets before => ?_, fun twelve none => ?_,
      fun thirteen k own bad => ?_⟩
    · exact State.arm_refused runs (Part.armCheck_count one bad)
    · obtain ⟨unarmed, count⟩ := two
      exact State.arm_refused runs (Part.armCheck_channel unarmed count bad)
    · obtain ⟨⟨unarmed, count⟩, channel⟩ := three
      exact State.arm_refused runs (Part.armCheck_sep unarmed count channel bad)
    · obtain ⟨⟨⟨unarmed, count⟩, channel⟩, sep⟩ := four
      exact State.arm_refused runs (Part.armCheck_width unarmed count channel sep bad)
    · obtain ⟨⟨⟨⟨unarmed, count⟩, channel⟩, sep⟩, width⟩ := five
      exact State.arm_refused runs (Part.armCheck_height unarmed count channel sep width bad)
    · obtain ⟨⟨⟨⟨⟨unarmed, count⟩, channel⟩, sep⟩, width⟩, height⟩ := six
      exact State.arm_refused runs (Part.armCheck_set unarmed count channel sep width height bad)
    · obtain ⟨⟨⟨⟨⟨⟨unarmed, count⟩, channel⟩, sep⟩, width⟩, height⟩, set⟩ := seven
      exact State.arm_refused runs
        (Part.armCheck_hold unarmed count channel sep width height set (holdPolicy?_unknown one two))
    · obtain ⟨⟨⟨⟨⟨⟨⟨unarmed, count⟩, channel⟩, sep⟩, width⟩, height⟩, set⟩, hold⟩ := eight
      obtain ⟨policy, hold⟩ := holdPolicy?_known hold
      exact State.arm_refused runs
        (Part.armCheck_action unarmed count channel sep width height set hold (deadlineAction?_unknown one two))
    · obtain ⟨policy, action, check⟩ := policies nine
      exact State.arm_refused runs (check.trans (if_pos bad))
    · obtain ⟨policy, action, check⟩ := placements ten
      exact State.arm_refused runs (check.trans (Part.armPlacements_unfit here unfit before))
    · obtain ⟨ten, fit⟩ := eleven
      obtain ⟨policy, action, check⟩ := placements ten
      exact State.arm_refused runs
        (check.trans (Part.armPlacements_overlap fit (framesOverlap_first ascend most meets before)))
    · obtain ⟨policy, action, check⟩ := windows twelve
      have missing : s.part.hasWindow f.channel (f.record policy action).needs = false :=
        eq_false_of_ne_true fun h => (Part.hasWindow_iff.mp h).elim none
      exact State.arm_refused runs (check.trans (if_pos missing))
    · obtain ⟨twelve, m, serves⟩ := thirteen
      obtain ⟨policy, action, check⟩ := windows twelve
      have served : s.part.hasWindow f.channel (f.record policy action).needs = true :=
        Part.hasWindow_iff.mpr ⟨m, serves⟩
      obtain rfl : k = (f.record policy action).screenSet :=
        Fin.ext (own.trans (Nat.mod_eq_of_lt (by omega)).symm)
      rw [if_neg (by rw [served]; decide), if_pos bad] at check
      exact State.arm_refused runs check

end Sys2Proof.Machine
end

section
/-! SUPPORT. A plate that alone stands on its channel's lists: READY, then QUEUED (R111 to R113). -/

namespace Sys2Proof.Machine

/-- No plate but `n` stands on the channel's lists. -/
def Channel.listsOnly (c : Channel) (n : Fin 64) : Prop := (∀ m ∈ c.ready, m = n) ∧ ∀ m ∈ c.queue, m = n

theorem Channel.follow_listsOnly {c : Channel} {n : Fin 64} (h : c.listsOnly n) : c.follow.listsOnly n := by
  obtain ⟨ready, queue⟩ := c.follow_lists
  unfold listsOnly
  rw [ready, queue]
  exact h

/-- An IDLE channel with an empty queue stays as it is; with a plate in the queue it is PRIMED (R113, R126). -/
theorem Channel.follow_idle {c : Channel} (state : c.state = .idle) (queue : c.queue = []) : c.follow = c := by
  unfold follow
  split
  · rename_i list
    exact absurd (queue.symm.trans list) (List.cons_ne_nil _ _).symm
  · rename_i primed _
    exact nomatch state.symm.trans primed
  · rfl

theorem Channel.follow_primed {c : Channel} {n : Fin 64} {rest : List (Fin 64)} (state : c.state = .idle)
    (queue : c.queue = n :: rest) : c.follow = { c with state := .primed } := by
  unfold follow
  rw [state, queue]

/-- The position of a plate on its channel's lists. -/
def Channel.positionOf (c : Channel) (m : Fin 64) : Position :=
  match c.queue.idxOf? m, c.ready.idxOf? m with
  | some i, _ => .queue i
  | none, some i => .ready i
  | none, none => .nowhere

theorem Channel.positionOf_other {c : Channel} {n m : Fin 64} (other : m ≠ n) (only : c.listsOnly n) :
    c.positionOf m = .nowhere := by
  obtain ⟨ready, queue⟩ := only
  rw [positionOf, List.idxOf?_eq_none_iff.mpr fun h => other (queue m h),
    List.idxOf?_eq_none_iff.mpr fun h => other (ready m h)]

namespace Part

section
variable {p q : Part} {n m : Fin 64} {j k : Fin 2}

theorem position_eq (own : p.plates[m].copy.channel = j) : p.position m = p.channels[j].positionOf m := by
  subst own
  rfl

/-- Only the plate on the changed lists moves. -/
theorem movedPlates_only (plates : q.plates = p.plates) (others : ∀ j : Fin 2, j ≠ k → q.channels[j] = p.channels[j])
    (before : p.channels[k].listsOnly n) (after : q.channels[k].listsOnly n) : ∀ m ∈ movedPlates p q, m = n := by
  intro m moved
  by_contra other
  have own : q.plates[m].copy.channel = p.plates[m].copy.channel := by rw [plates]
  have same : q.position m = p.position m := by
    by_cases here : p.plates[m].copy.channel = k
    · rw [position_eq here, position_eq (own.trans here), Channel.positionOf_other other before,
        Channel.positionOf_other other after]
    · rw [position_eq own, position_eq (p := p) rfl, others _ here]
  have differ := (List.mem_filter.mp moved).2
  rw [same] at differ
  simp at differ

theorem Touches.plateStatuses {ranges : List (Nat × Nat)} {ns : List (Fin 64)}
    (inside : ∀ m ∈ ns, plateRange m ∈ ranges) (h : p.Touches ranges q) :
    p.Touches ranges (ns.foldl Part.plateStatus q) := by
  induction ns generalizing q with
  | nil => exact h
  | cons m rest ih =>
    exact ih (fun m member => inside m (List.mem_cons_of_mem _ member))
      (h.plateStatus (inside m List.mem_cons_self))

theorem Touches.setLists {ranges : List (Nat × Nat)} {ready queue : List (Fin 64)} (h : p.Touches ranges q)
    (before : q.channels[k].listsOnly n) (first : ∀ m ∈ ready, m = n) (second : ∀ m ∈ queue, m = n)
    (header : headerRange ∈ ranges) (plate : plateRange n ∈ ranges) :
    p.Touches ranges (q.setLists k ready queue) := by
  have channels := q.changeChannel_channels k fun c => ({ c with ready := ready, queue := queue } : Channel).follow
  have only : q.Only [.channels, .mem, .port]
    (q.changeChannel k fun c => ({ c with ready := ready, queue := queue } : Channel).follow) :=
    (Only.refl _ q).changeChannel
  have touches := h.changeChannel (k := k)
    (f := fun c => ({ c with ready := ready, queue := queue } : Channel).follow) header
  unfold Part.setLists
  dsimp only
  generalize (q.changeChannel k fun c => ({ c with ready := ready, queue := queue } : Channel).follow) = r at *
  refine touches.plateStatuses fun m moved => ?_
  rw [movedPlates_only (only .plates (by simp)) (fun j other => by rw [channels]; exact Vector.set_other other) before
    (by rw [Vector.get_of_eq_set channels]; exact Channel.follow_listsOnly ⟨first, second⟩) m moved]
  exact plate

/-! ## READY (R111) -/

theorem becomeReady_plates (p : Part) (n : Fin 64) (forced : Bool) :
    (p.becomeReady n forced).plates = p.plates.set n { p.plates[n] with state := .ready, forced := forced } :=
  (setLists_only _ _ _ _) .plates (by simp)

theorem becomeReady_only (p : Part) (n : Fin 64) (forced : Bool) :
    p.Only [.plates, .channels, .mem, .port] (p.becomeReady n forced) :=
  ((Only.refl _ p).changePlate).trans ((setLists_only _ _ _ _).mono (by simp))

section
variable (own : p.plates[n].copy.channel = k) (ready : p.channels[k].ready = []) (queue : p.channels[k].queue = [])
include own ready queue

theorem becomeReady_alone (forced : Bool) :
    p.becomeReady n forced
      = (p.changePlate n fun x => { x with state := .ready, forced := forced }).setLists k [n] [] := by
  subst own
  have lists : p.becomeReady n forced
    = (p.changePlate n fun x => { x with state := .ready, forced := forced }).setLists p.plates[n].copy.channel
      (p.channels[p.plates[n].copy.channel].ready ++ [n]) p.channels[p.plates[n].copy.channel].queue := rfl
  rw [lists, ready, queue]
  rfl

theorem becomeReady_channels (idle : p.channels[k].state = .idle) (forced : Bool) :
    (p.becomeReady n forced).channels = p.channels.set k { p.channels[k] with ready := [n] } := by
  have channels := (p.changePlate n fun x => { x with state := .ready, forced := forced }).setLists_channels k [n] []
  have followed : ({ p.channels[k] with ready := [n], queue := [] } : Channel).follow
      = { p.channels[k] with ready := [n] } :=
    (Channel.follow_idle (c := { p.channels[k] with ready := [n], queue := [] }) idle rfl).trans
      (congrArg (fun list => { p.channels[k] with ready := [n], queue := list }) queue.symm)
  rw [becomeReady_alone own ready queue, ← followed]
  exact channels

theorem becomeReady_touches {ranges : List (Nat × Nat)} (header : headerRange ∈ ranges)
    (plate : plateRange n ∈ ranges) (forced : Bool) : p.Touches ranges (p.becomeReady n forced) := by
  have before : p.channels[k].listsOnly n := by
    rw [Channel.listsOnly, ready, queue]
    exact ⟨fun _ h => absurd h List.not_mem_nil, fun _ h => absurd h List.not_mem_nil⟩
  rw [becomeReady_alone own ready queue]
  exact ((Touches.refl _ p).changePlate).setLists before (fun m member => List.mem_singleton.mp member)
    (fun _ h => nomatch h) header plate

end

end
end Part
end Sys2Proof.Machine
end

section
/-! SUPPORT. The head of a READY list admitted to its screen set (R89, R112). -/

namespace Sys2Proof.Machine
namespace Part

section
variable (p : Part) (k : Fin 2) (n : Fin 64) (i : Fin 8)

theorem changeUse_only (f : Nat → Nat) : p.Only [.sets, .mem, .port] (p.changeUse i f) :=
  ((Only.refl _ p).setSet).statusWrite

theorem changeUse_sets (f : Nat → Nat) :
    (p.changeUse i f).sets = p.sets.set i { p.sets[i] with use := f p.sets[i].use } := statusWrite_sets _ _

theorem changeUse_plates (f : Nat → Nat) : (p.changeUse i f).plates = p.plates := statusWrite_plates _ _

theorem changeUse_channels (f : Nat → Nat) : (p.changeUse i f).channels = p.channels := statusWrite_channels _ _

theorem changeUse_touches {ranges : List (Nat × Nat)} (set : resultRange (.screenSet i) ∈ ranges) (f : Nat → Nat) :
    p.Touches ranges (p.changeUse i f) := ((Touches.refl _ p).setSet).statusWrite set

/-- A plate as it is admitted. -/
def queuedPlate (x : Plate) : Plate := { x with state := .queued }

/-- The set counts the use, and the plate is QUEUED (R89, R112). -/
def usesSet : Part := (p.changeUse i (· + 1)).changePlate n queuedPlate

theorem usesSet_only : p.Only [.sets, .plates, .mem, .port] (p.usesSet n i) :=
  ((p.changeUse_only i (· + 1)).mono (by simp)).changePlate

theorem usesSet_sets :
    (p.usesSet n i).sets = p.sets.set i { p.sets[i] with use := p.sets[i].use + 1 } := by
  have sets := p.changeUse_sets i (· + 1)
  unfold usesSet
  generalize p.changeUse i (· + 1) = a at sets
  exact sets

theorem usesSet_plates : (p.usesSet n i).plates = p.plates.set n (queuedPlate p.plates[n]) := by
  have same := p.changeUse_plates i (· + 1)
  unfold usesSet
  generalize p.changeUse i (· + 1) = a at same
  show a.plates.set n (queuedPlate a.plates[n]) = _
  rw [same]

theorem usesSet_channels : (p.usesSet n i).channels = p.channels := by
  have same := p.changeUse_channels i (· + 1)
  unfold usesSet
  generalize p.changeUse i (· + 1) = a at same
  exact same

theorem usesSet_touches {ranges : List (Nat × Nat)} (set : resultRange (.screenSet i) ∈ ranges) :
    p.Touches ranges (p.usesSet n i) := (p.changeUse_touches i set (· + 1)).changePlate

/-- The head plate admitted to an empty queue, its report not yet raised. -/
def admitted : Part := (p.usesSet n i).setLists k [] [n]

/-- PLATE_QUEUED at the head of the queue (R112, R207). -/
def queuedSubject (p : Part) (n : Fin 64) : Subject :=
  .plate { label := p.plates[n].copy.label, plate := n.val, channel := p.plates[n].copy.channel.val
           forced := p.plates[n].forced }

theorem admitted_only : p.Only [.sets, .plates, .channels, .mem, .port] (p.admitted k n i) :=
  ((p.usesSet_only n i).mono (by simp)).trans (((p.usesSet n i).setLists_only k [] [n]).mono (by simp))

theorem admitted_sets :
    (p.admitted k n i).sets = p.sets.set i { p.sets[i] with use := p.sets[i].use + 1 } :=
  ((p.usesSet n i).setLists_only k [] [n] .sets (by simp)).trans (p.usesSet_sets n i)

theorem admitted_plates : (p.admitted k n i).plates = p.plates.set n (queuedPlate p.plates[n]) :=
  ((p.usesSet n i).setLists_only k [] [n] .plates (by simp)).trans (p.usesSet_plates n i)

theorem admitted_channels (idle : p.channels[k].state = .idle) :
    (p.admitted k n i).channels
      = p.channels.set k { p.channels[k] with ready := [], queue := [n], state := .primed } := by
  rw [admitted, setLists_channels, usesSet_channels]
  exact congrArg (p.channels.set k) (Channel.follow_primed idle rfl)

variable {p k n i}

theorem admitted_touches {ranges : List (Nat × Nat)} (alone : p.channels[k].listsOnly n)
    (set : resultRange (.screenSet i) ∈ ranges) (header : headerRange ∈ ranges) (plate : plateRange n ∈ ranges) :
    p.Touches ranges (p.admitted k n i) :=
  (p.usesSet_touches n i set).setLists (by rw [usesSet_channels]; exact alone)
    (fun m member => absurd member List.not_mem_nil) (fun m member => List.mem_singleton.mp member) header plate

/-- PLATE_QUEUED for a plate that has joined the queue (R112). -/
def tellQueued (q : Part) (k : Fin 2) (n : Fin 64) : Part :=
  q.raise .plateQueued (.plate { q.channelForm n with
    forced := q.plates[n].forced, position := q.channels[k].queue.length - 1 })

theorem admitHead_admits {rest : List (Fin 64)} (ready : p.channels[k].ready = n :: rest)
    (loaded : p.sets[p.plates[n].copy.screenSet].state = .loaded) :
    p.admitHead k = ((p.usesSet n p.plates[n].copy.screenSet).setLists k rest
      ((p.usesSet n p.plates[n].copy.screenSet).channels[k].queue ++ [n])).tellQueued k n := by
  unfold admitHead
  rw [ready]
  dsimp only
  rw [if_pos loaded]
  rfl

theorem admitHead_alone (ready : p.channels[k].ready = [n]) (queue : p.channels[k].queue = [])
    (idle : p.channels[k].state = .idle)
    (uses : p.plates[n].copy.screenSet = i) (loaded : p.sets[i].state = .loaded) :
    p.admitHead k = (p.admitted k n i).raise .plateQueued (p.queuedSubject n) := by
  have plates := p.admitted_plates k n i
  have channels := p.admitted_channels k n i idle
  have plate := Vector.get_of_eq_set plates
  have channel := Vector.get_of_eq_set channels
  have lists : (p.usesSet n i).setLists k [] ((p.usesSet n i).channels[k].queue ++ [n]) = p.admitted k n i := by
    rw [usesSet_channels, queue]
    rfl
  have told : (p.admitted k n i).tellQueued k n = (p.admitted k n i).raise .plateQueued (p.queuedSubject n) := by
    rw [tellQueued, channelForm, plateForm, plate, channel]
    rfl
  subst uses
  rw [admitHead_admits ready loaded, lists, told]

theorem feed_one (ready : p.channels[k].ready = [n]) (queue : p.channels[k].queue = []) : p.feed k = p.admitHead k := by
  rw [feed, ready]
  unfold admissions
  rw [queue]
  exact if_pos (by decide)

/-- One plate stands on the READY lists, and its admission leaves them empty. -/
theorem feedAll_one (ready : p.channels[k].ready = [n]) (queue : p.channels[k].queue = [])
    (others : ∀ j : Fin 2, j ≠ k → p.channels[j].ready = [])
    (after : ∀ j : Fin 2, j ≠ k → (p.admitHead k).channels[j].ready = []) : p.feedAll = p.admitHead k := by
  have two : k = 0 ∨ k = 1 := by omega
  unfold feedAll
  rcases two with rfl | rfl
  · rw [feed_one ready queue]
    exact feed_empty (after 1 (by decide))
  · rw [feed_empty (others 0 (by decide))]
    exact feed_one ready queue

end
end Part
end Sys2Proof.Machine
end

section
/-! SUPPORT. ARM of a plate whose one page stands whole in the directory (R106, R107, R110 to R113). -/

namespace Sys2Proof.Machine

/-- A slot in use whose entries in use are all GOOD is whole (R35). -/
theorem Slot.whole_of_good {x : Slot} (inUse : x.inUse = true)
    (bands : ∀ i : Fin 64, i.val < x.geom.bandCount → x.bands[i].state = .good)
    (tones : ∀ r : Fin 16, r.val < x.geom.toneCount → x.tones[r].state = .good) : x.whole = true := by
  unfold Slot.whole
  rw [inUse, Bool.true_and, List.all_eq_true]
  intro e member
  rw [beq_iff_eq]
  rcases List.mem_append.mp member with band | tone
  · obtain ⟨i, inside, rfl⟩ := List.mem_take_iff_getElem.mp band
    rw [Vector.length_toList, lt_min_iff] at inside
    rw [Vector.getElem_toList]
    exact bands ⟨i, inside.2⟩ inside.1
  · obtain ⟨i, inside, rfl⟩ := List.mem_take_iff_getElem.mp tone
    rw [Vector.length_toList, lt_min_iff] at inside
    rw [Vector.getElem_toList]
    exact tones ⟨i, inside.2⟩ inside.1

/-- The internal copy of one placement (R103). -/
def PlacementFields.placement (q : PlacementFields) : Placement :=
  { edition := q.edition, zone := q.zone, page := q.page, version := q.version, frameW := q.frameW, frameH := q.frameH
    x0 := q.x0, y0 := q.y0, turned := q.rotation == 1 }

theorem record_single {f : PlateFields} {q : PlacementFields} {policy : HoldPolicy} {action : DeadlineAction}
    (placements : f.placements = [q]) : (f.record policy action).numberedPlacements = [(0, q.placement)] := by
  unfold PlateRecord.numberedPlacements PlateFields.record
  rw [placements, show List.finRange 4 = [0, 1, 2, 3] from rfl]
  rfl

namespace Part

/-- The resolution of a placement to a slot, pinned (R107). -/
def resolvedTo (p : Part) (m : Fin 512) : Resolution :=
  { shown := true, pinned := true, slot := m, alloc := p.slots[m].alloc, version := p.slots[m].version }

/-- A new plate with its placement 0 resolved. -/
def resolvedPlate (copy : PlateRecord) (r : Resolution) : Plate :=
  { newPlate copy with res := (Vector.replicate 4 {}).set 0 r }

/-- The part once placement 0 of a new plate has been resolved to slot `m` (R106, step 2). -/
def resolvedPart (p : Part) (n : Fin 64) (copy : PlateRecord) (m : Fin 512) : Part :=
  ((p.setPlate n (newPlate copy)).changePlate n fun y => y.setRes 0 (p.resolvedTo m)).takePin m

theorem takePin_only (p : Part) (m : Fin 512) : p.Only [.slots, .mem, .port] (p.takePin m) :=
  (Only.refl _ p).changeSlot

theorem takePin_slots (p : Part) (m : Fin 512) :
    (p.takePin m).slots = p.slots.set m
      { p.slots[m] with pins := p.slots[m].pins + 1, change := p.slots[m].change + 1 } := p.changeSlot_slots m _

theorem takePin_touches {ranges : List (Nat × Nat)} (p : Part) {m : Fin 512} (mirror : mirrorRange m ∈ ranges) :
    p.Touches ranges (p.takePin m) := (Touches.refl _ p).changeSlot mirror

theorem lookFor_congr {p q : Part} (slots : q.slots = p.slots) (id : Identity) (version : Nat) :
    q.lookFor id version = p.lookFor id version := by
  unfold lookFor currentSlot versionSlot findSlot
  rw [slots]

section
variable {p : Part} {n : Fin 64} {m : Fin 512} {i : Fin 4} {x : Placement}

theorem resolveTo_fits (width : p.slots[m].geom.width = x.frameW) (height : p.slots[m].geom.height = x.frameH) :
    p.resolveTo n i x m = ((p.changePlate n fun y => y.setRes i (p.resolvedTo m)).takePin m, true) :=
  if_pos ⟨width, height⟩

theorem armPlacement_fits {copy : PlateRecord} (plate : p.plates[n].copy = copy)
    (found : p.lookFor (copy.identity x) x.version = some m) (width : p.slots[m].geom.width = x.frameW)
    (height : p.slots[m].geom.height = x.frameH) :
    p.armPlacement n (i, x) = ((p.changePlate n fun y => y.setRes i (p.resolvedTo m)).takePin m, none) := by
  rw [armPlacement, plate, found]
  dsimp only
  rw [resolveTo_fits width height]

theorem armResolve_single {copy : PlateRecord} (single : copy.numberedPlacements = [(0, x)])
    (found : p.lookFor (copy.identity x) x.version = some m) (width : p.slots[m].geom.width = x.frameW)
    (height : p.slots[m].geom.height = x.frameH) :
    Part.armResolve n (p.setPlate n (newPlate copy)) copy.numberedPlacements = (p.resolvedPart n copy m, []) := by
  have plates : (p.setPlate n (newPlate copy)).plates = p.plates.set n (newPlate copy) := rfl
  have slots : (p.setPlate n (newPlate copy)).slots = p.slots := rfl
  have same : (p.setPlate n (newPlate copy)).resolvedTo m = p.resolvedTo m := rfl
  have one : (p.setPlate n (newPlate copy)).armPlacement n (0, x) = (p.resolvedPart n copy m, none) := by
    have plate : (p.setPlate n (newPlate copy)).plates[n].copy = copy := by rw [Vector.get_of_eq_set plates, newPlate]
    rw [armPlacement_fits plate (m := m) (by rw [lookFor_congr slots]; exact found) (by rw [slots]; exact width)
      (by rw [slots]; exact height), same, resolvedPart]
  rw [single, armResolve, one, armResolve]
  rfl

theorem resolvedPart_plates (p : Part) (n : Fin 64) (copy : PlateRecord) (m : Fin 512) :
    (p.resolvedPart n copy m).plates = p.plates.set n (resolvedPlate copy (p.resolvedTo m)) := by
  refine (takePin_plates _ _).trans ?_
  rw [changePlate_set (plates := p.plates) (x := newPlate copy) rfl]
  rfl

theorem resolvedPart_only (p : Part) (n : Fin 64) (copy : PlateRecord) (m : Fin 512) :
    p.Only [.plates, .slots, .mem, .port] (p.resolvedPart n copy m) := by
  have only : p.Only [.plates] ((p.setPlate n (newPlate copy)).changePlate n fun y => y.setRes 0 (p.resolvedTo m)) :=
    ((Only.refl _ p).setPlate).changePlate
  unfold resolvedPart
  generalize (p.setPlate n (newPlate copy)).changePlate n (fun y => y.setRes 0 (p.resolvedTo m)) = a at only
  exact (only.mono (by simp)).trans ((a.takePin_only m).mono (by simp))

theorem resolvedPart_slots (p : Part) (n : Fin 64) (copy : PlateRecord) (m : Fin 512) :
    (p.resolvedPart n copy m).slots = p.slots.set m
      { p.slots[m] with pins := p.slots[m].pins + 1, change := p.slots[m].change + 1 } := by
  have same : ((p.setPlate n (newPlate copy)).changePlate n fun y => y.setRes 0 (p.resolvedTo m)).slots = p.slots := rfl
  unfold resolvedPart
  generalize (p.setPlate n (newPlate copy)).changePlate n (fun y => y.setRes 0 (p.resolvedTo m)) = a at same
  rw [takePin_slots, same]

theorem resolvedPart_touches {ranges : List (Nat × Nat)} (p : Part) (n : Fin 64) (copy : PlateRecord) {m : Fin 512}
    (mirror : mirrorRange m ∈ ranges) : p.Touches ranges (p.resolvedPart n copy m) := by
  have touches : p.Touches ranges
      ((p.setPlate n (newPlate copy)).changePlate n fun y => y.setRes 0 (p.resolvedTo m)) :=
    ((Touches.refl _ p).setPlate).changePlate
  unfold resolvedPart
  generalize (p.setPlate n (newPlate copy)).changePlate n (fun y => y.setRes 0 (p.resolvedTo m)) = a at touches
  exact touches.trans (a.takePin_touches mirror)

/-- What ARM has written of the part once its one placement is resolved and the plate stands READY. -/
structure ArmsReady (p : Part) (n : Fin 64) (copy : PlateRecord) (m : Fin 512) (q : Part) : Prop where
  plates : q.plates = p.plates.set n { resolvedPlate copy (p.resolvedTo m) with state := .ready }
  slots : q.slots = p.slots.set m
    { p.slots[m] with pins := p.slots[m].pins + 1, change := p.slots[m].change + 1 }
  channels : q.channels = p.channels.set copy.channel { p.channels[copy.channel] with ready := [n] }
  only : p.Only [.plates, .slots, .channels, .mem, .port] q
  touches : p.Touches [plateRange n, mirrorRange m, headerRange] q

theorem armPlate_whole {copy : PlateRecord} (never : copy.deadline = 0) (single : copy.numberedPlacements = [(0, x)])
    (found : p.lookFor (copy.identity x) x.version = some m) (width : p.slots[m].geom.width = x.frameW)
    (height : p.slots[m].geom.height = x.frameH) (whole : p.slots[m].whole = true)
    (ready : p.channels[copy.channel].ready = []) (queue : p.channels[copy.channel].queue = [])
    (idle : p.channels[copy.channel].state = .idle) : p.ArmsReady n copy m (p.armPlate n copy) := by
  rw [armPlate_untimed never (armResolve_single single found width height)]
  have plates := p.resolvedPart_plates n copy m
  have slots := p.resolvedPart_slots n copy m
  have only := p.resolvedPart_only n copy m
  have touches := p.resolvedPart_touches (ranges := [plateRange n, mirrorRange m, headerRange]) n copy (m := m)
      (by simp)
  generalize p.resolvedPart n copy m = a at *
  have plates : (a.changePlate n untimed).plates = p.plates.set n (resolvedPlate copy (p.resolvedTo m)) := by
    rw [changePlate_set plates]
    rfl
  have slots : (a.changePlate n untimed).slots = _ := slots
  have only := only.changePlate (n := n) (f := untimed)
  have touches := touches.changePlate (n := n) (f := untimed)
  generalize a.changePlate n untimed = b at *
  have plate := Vector.get_of_eq_set plates
  have channels : b.channels = p.channels := only .channels (by simp)
  have runs : b.readyToRun n = true := by
    have pinned : (resolvedPlate copy (p.resolvedTo m)).res[(0 : Fin 4)] = p.resolvedTo m := rfl
    have slot : b.slots[m].whole = true := by
      rw [Vector.get_of_eq_set slots]
      exact whole
    refine List.all_eq_true.mpr fun y member => ?_
    rw [plate] at member ⊢
    obtain rfl := List.mem_singleton.mp (single ▸ member)
    rw [pinned, resolvedWhole, resolvedTo, Bool.true_and]
    exact slot
  rw [if_pos runs]
  have own : b.plates[n].copy.channel = copy.channel := by rw [plate]; rfl
  have became := b.becomeReady_plates n false
  have listed := becomeReady_channels own (by rw [channels]; exact ready) (by rw [channels]; exact queue)
    (by rw [channels]; exact idle) false
  have touches := touches.trans (becomeReady_touches own (by rw [channels]; exact ready)
    (by rw [channels]; exact queue) (by simp) (by simp) false)
  have only := (only.mono (more := [.plates, .slots, .channels, .mem, .port]) (by simp)).trans
    ((b.becomeReady_only n false).mono (by simp))
  have kept : (b.becomeReady n false).slots = b.slots := b.becomeReady_only n false .slots (by simp)
  generalize b.becomeReady n false = c at *
  refine ⟨(plateStatus_plates _ _).trans ?_, (plateStatus_slots _ _).trans (kept.trans slots),
    (plateStatus_channels _ _).trans ?_, only.plateStatus, touches.plateStatus (by simp)⟩
  · rw [became, plate, plates, Vector.set_set]
    rfl
  · rw [listed, channels]

/-- What ARM has written of the part once its plate is QUEUED. -/
structure ArmsQueued (p : Part) (n : Fin 64) (copy : PlateRecord) (m : Fin 512) (q : Part) : Prop where
  plates : q.plates = p.plates.set n { resolvedPlate copy (p.resolvedTo m) with state := .queued }
  slots : q.slots = p.slots.set m
    { p.slots[m] with pins := p.slots[m].pins + 1, change := p.slots[m].change + 1 }
  channels : q.channels = p.channels.set copy.channel
    { p.channels[copy.channel] with queue := [n], state := .primed }
  sets : q.sets = p.sets.set copy.screenSet
    { p.sets[copy.screenSet] with use := p.sets[copy.screenSet].use + 1 }
  reports : q.reports = p.after .plateQueued
    (.plate { label := copy.label, plate := n.val, channel := copy.channel.val })
  only : p.Only [.plates, .slots, .channels, .sets, .reports, .mem, .port] q
  touches : p.Touches (plateRange n :: mirrorRange m :: resultRange (.screenSet copy.screenSet) :: p.reportRanges) q

theorem ArmsReady.fed {copy : PlateRecord} {a : Part} (h : p.ArmsReady n copy m a)
    (ready : ∀ j : Fin 2, p.channels[j].ready = []) (queue : p.channels[copy.channel].queue = [])
    (idle : p.channels[copy.channel].state = .idle) (loaded : p.sets[copy.screenSet].state = .loaded) :
    p.ArmsQueued n copy m a.feedAll := by
  obtain ⟨plates, slots, channels, only, touches⟩ := h
  have plate := Vector.get_of_eq_set plates
  have own := Vector.get_of_eq_set channels
  have sets : a.sets = p.sets := only .sets (by simp)
  have uses : a.plates[n].copy.screenSet = copy.screenSet := by rw [plate]; rfl
  have here : a.channels[copy.channel].queue = [] := by rw [own]; exact queue
  have head := admitHead_alone (p := a) (by rw [own]) here (by rw [own]; exact idle) uses (by rw [sets]; exact loaded)
  have listed := a.admitted_channels copy.channel n copy.screenSet (by rw [own]; exact idle)
  have queued := a.admitted_plates copy.channel n copy.screenSet
  have used := a.admitted_sets copy.channel n copy.screenSet
  have admits := a.admitted_only copy.channel n copy.screenSet
  have alone : a.channels[copy.channel].listsOnly n := by
    rw [own, Channel.listsOnly, queue]
    exact ⟨fun m member => List.mem_singleton.mp member, fun m member => absurd member List.not_mem_nil⟩
  have more : [plateRange n, mirrorRange m, headerRange]
      ⊆ plateRange n :: mirrorRange m :: resultRange (.screenSet copy.screenSet) :: p.reportRanges := by
    simp [reportRanges_eq]
  have touches := (touches.mono more).trans (admitted_touches (k := copy.channel) (i := copy.screenSet) alone (by simp)
    (by simp [reportRanges_eq]) (by simp))
  have subject : a.queuedSubject n = .plate { label := copy.label, plate := n.val, channel := copy.channel.val } := by
    rw [queuedSubject, plate]
    rfl
  generalize a.admitted copy.channel n copy.screenSet = b at *
  have others (j : Fin 2) (other : j ≠ copy.channel) : a.channels[j].ready = [] := by
    rw [channels, Vector.set_other other]
    exact ready j
  have after (j : Fin 2) (other : j ≠ copy.channel) : (a.admitHead copy.channel).channels[j].ready = [] := by
    rw [head, raise_channels, listed, Vector.set_other other]
    exact others j other
  rw [feedAll_one (by rw [own]) here others after, head, subject]
  have all := (only.mono (more := [.plates, .slots, .channels, .sets, .reports, .mem, .port]) (by simp)).trans
    (admits.mono (by simp))
  have quiet := (only.quiet).trans admits.quiet
  have reports : b.reports = p.reports := quiet.reports
  refine ⟨(raise_plates _ _ _).trans ?_, (raise_slots _ _ _).trans ((admits .slots (by simp)).trans slots),
    (raise_channels _ _ _).trans ?_, (raise_sets _ _ _).trans (used.trans (by rw [sets])), quiet.raise_reports _ _,
    all.raise, touches.raise ?_ ?_⟩
  · rw [queued, plate, plates, Vector.set_set]
    rfl
  · rw [listed, own, channels, Vector.set_set]
    exact congrArg (fun list => p.channels.set copy.channel
      { p.channels[copy.channel] with ready := list, queue := [n], state := .primed }) (ready copy.channel).symm
  · rw [reports]
    simp [reportRanges_eq]
  · simp [reportRanges_eq]

end

/-- The current slot of an identity, where no other slot is current under it (R26, R107). -/
theorem lookFor_current {p : Part} {id : Identity} {m : Fin 512} (current : p.slots[m].current = true)
    (named : p.slots[m].id = id)
    (alone : ∀ j : Fin 512, p.slots[j].current = true → p.slots[j].id = p.slots[m].id → j = m) :
    p.lookFor id 0 = some m := by
  refine (if_pos rfl).trans (findSlot_lowest ?_ fun j below => eq_false_of_ne_true fun hit => ?_)
  · rw [current, named]
    simp
  · rw [Bool.and_eq_true, beq_iff_eq] at hit
    exact below.ne (alone j hit.1 (hit.2.trans named.symm))

theorem resolvedPlate_detail (copy : PlateRecord) (r : Resolution) (shown : r.shown = true) :
    packBytes ({ resolvedPlate copy r with state := .queued } : Plate).resolved PlateState.queued.code = 769 := by
  have one : ({ resolvedPlate copy r with state := .queued } : Plate).resolved = 1 := by
    have first : ((Vector.replicate 4 ({} : Resolution)).set 0 r).toList = [r, {}, {}, {}] := rfl
    unfold Plate.resolved resolvedPlate
    rw [first]
    simp [shown]
  rw [one]
  rfl

end Part

/-- Settles O50. -/
theorem armQueuesAWholePlate : Obligations.ArmQueuesAWholePlate := by
  intro s n m q policy action runs f copy k armable never placements version current named alone width height bands tones
    empty queue idle resolved
  have run := State.arm_run runs
  rw [Part.doArm_accepted (Part.armCheck_accepted armable)] at run
  obtain ⟨-, -, -, -, -, -, -, -, -, -, set, -, -, -, -, -, -, loaded⟩ := armable
  have screen : s.part.sets[copy.screenSet].state = .loaded :=
    loaded copy.screenSet (Nat.mod_eq_of_lt (Nat.lt_succ_of_le set))
  have found : s.part.lookFor (copy.identity q.placement) q.placement.version = some m := by
    have any : q.placement.version = 0 := version
    rw [any]
    exact Part.lookFor_current current named alone
  have armed := (Part.armPlate_whole (p := s.part) (n := n) (copy := copy) (by
    show BitVec.ofNat 32 f.deadline = 0
    rw [never]
    rfl) (record_single placements) found width height
    (Slot.whole_of_good (Part.current_inUse current) bands tones) (empty _) queue idle).fed empty queue idle screen
  change exec (.arm n) s = .next { s with part := ((s.part.armPlate n copy).feedAll.finish (.plate n) .done
      (packBytes (s.part.armPlate n copy).feedAll.plates[n].resolved
        (s.part.armPlate n copy).feedAll.plates[n].state.code)) } at run
  generalize (s.part.armPlate n copy).feedAll = a at run armed
  obtain ⟨plates, slots, channels, sets, reports, only, touches⟩ := armed
  have detail : packBytes a.plates[n].resolved a.plates[n].state.code = 769 := by
    rw [Vector.get_of_eq_set plates]
    exact Part.resolvedPlate_detail copy _ rfl
  rw [detail] at run
  have all : s.part.Only [.plates, .slots, .channels, .sets, .reports, .units, .mem, .port]
      (a.finish (.plate n) .done 769) := (only.mono (by simp)).finish
  exact ⟨_, run, (Part.finish_plates _ _ _ _).trans plates, (Part.finish_slots _ _ _ _).trans slots,
    (Part.finish_channels _ _ _ _).trans channels, (Part.finish_sets _ _ _ _).trans sets,
    (Part.finish_reports _ _ _ _).trans reports, Part.finish_ended_of (only .units (by simp)) touches.cabase touches.wf,
    State.part_congr all.eq_pick, (touches.finish_plate (by simp)).kept⟩

end Sys2Proof.Machine
end

section
/-! SUPPORT. The final block ends its plate (R114, R134). -/

namespace Sys2Proof.Machine
namespace Part

/-- The plate as its raster's last block ends it, but for its pins (R114, R134). -/
def donePlate (p : Part) (k : Fin 2) (x : Plate) : Plate :=
  { x with
    state := .done
    summary := { x.summary with
      endTick := p.tick, checksum := ~~~ p.channels[k].checksum, valid := p.channels[k].order } }

/-- The plate marked DONE with the end of its summary. -/
def markDone (p : Part) (k : Fin 2) (n : Fin 64) : Part :=
  (p.changeSummary n fun s => { s with
    endTick := p.tick, checksum := ~~~ p.channels[k].checksum, valid := p.channels[k].order }).changePlate n
      fun x => { x with state := .done }

/-- The plate DONE, its pins, its set's use and the cursors released (R67, R89, R109). -/
def doneWork (p : Part) (k : Fin 2) (n : Fin 64) : Part := (((p.markDone k n).unpinAll n).dropUse n).dropCursors k

/-- PLATE_DONE told (R134, R207). -/
def tellDone (p : Part) (n : Fin 64) : Part :=
  (p.plateStatus n).raise .plateDone (.plate { p.channelForm n with tail := p.plates[n].summary.bytes })

theorem endPlate_eq (p : Part) (k : Fin 2) (n : Fin 64) :
    p.endPlate k n = (((((p.doneWork k n).tellDone n).leaveExposing k n afterDone).feed k).endClosing k) := rfl

section
variable {p : Part} {k : Fin 2} {n : Fin 64} {i : Fin 8}

theorem markDone_plates (p : Part) (k : Fin 2) (n : Fin 64) :
    (p.markDone k n).plates = p.plates.set n (p.donePlate k p.plates[n]) := by
  unfold markDone
  rw [changePlate_set (plates := p.plates) (x := { p.plates[n] with summary := { p.plates[n].summary with
    endTick := p.tick, checksum := ~~~ p.channels[k].checksum, valid := p.channels[k].order } }) rfl]
  rfl

theorem markDone_only (p : Part) (k : Fin 2) (n : Fin 64) : p.Only [.plates] (p.markDone k n) :=
  ((Only.refl _ p).changePlate).changePlate

/-- What the end of a plate has written of the part, up to its channel's lists. -/
structure Finishes (p : Part) (k : Fin 2) (n : Fin 64) (i : Fin 8) (q : Part) : Prop where
  plates : q.plates = p.plates.set n (p.donePlate k p.plates[n]).unpinned
  others : ∀ m : Fin 512, (∀ j : Fin 4, ¬ p.pinsSlot n m j) → q.slots[m] = p.slots[m]
  alone : ∀ (m : Fin 512) (j : Fin 4), p.pinsSlot n m j → p.pinsAlone n m j → pinReleased p.slots[m] q.slots[m]
  sets : q.sets = p.sets.set i { p.sets[i] with use := p.sets[i].use - 1 }
  channels : q.channels = p.channels.set k { p.channels[k] with cursors := [] }
  only : p.Only [.plates, .channels, .sets, .slots, .orphans, .reports, .mem, .port] q

theorem doneWork_finishes (uses : p.plates[n].copy.screenSet = i) : p.Finishes k n i (p.doneWork k n) := by
  have plates := p.markDone_plates k n
  have marked := p.markDone_only k n
  unfold doneWork
  generalize p.markDone k n = a at *
  have plate := Vector.get_of_eq_set plates
  have slots : a.slots = p.slots := marked .slots (by simp)
  obtain ⟨others, alone⟩ := unpinAll_slots_of (n := n) slots (by rw [plate]; rfl)
  have unpinned := a.unpinAll_plates n
  have only := a.unpinAll_only n
  generalize a.unpinAll n = b at *
  have same : b.plates = p.plates.set n (p.donePlate k p.plates[n]).unpinned := by
    rw [unpinned, plate, plates, Vector.set_set]
  have own : b.plates[n].copy.screenSet = i := by
    rw [Vector.get_of_eq_set same]
    exact uses
  have dropped := b.dropUse_sets n own
  have sets : b.sets = p.sets := (only .sets (by simp)).trans (marked .sets (by simp))
  have channels : b.channels = p.channels := (only .channels (by simp)).trans (marked .channels (by simp))
  have uses := b.dropUse_only n
  generalize b.dropUse n = c at *
  have kept : c.slots = b.slots := uses .slots (by simp)
  have left : c.channels = p.channels := (uses .channels (by simp)).trans channels
  refine ⟨(uses .plates (by simp)).trans same, ?_, ?_, dropped.trans (by rw [sets]), ?_, ?_⟩
  · intro m free
    exact (congrArg (fun v : Vector Slot 512 => v[m]) kept).trans (others m free)
  · intro m j pinned single
    have slot : (c.dropCursors k).slots[m] = b.slots[m] := congrArg (fun v : Vector Slot 512 => v[m]) kept
    rw [slot]
    exact alone m j pinned single
  · show c.channels.set k { c.channels[k] with cursors := [] } = _
    rw [left]
  · exact (((marked.mono (by simp)).trans (only.mono (by simp))).trans (uses.mono (by simp))).setChannel

theorem Finishes.told {q : Part} (h : p.Finishes k n i q) : p.Finishes k n i (q.tellDone n) := by
  obtain ⟨plates, others, alone, sets, channels, only⟩ := h
  have tells : q.Only [.reports, .mem, .port] (q.tellDone n) := ((Only.refl _ q).plateStatus).raise
  generalize q.tellDone n = r at tells
  have slots : r.slots = q.slots := tells .slots (by simp)
  refine ⟨(tells .plates (by simp)).trans plates, ?_, ?_, (tells .sets (by simp)).trans sets,
    (tells .channels (by simp)).trans channels, only.trans (tells.mono (by simp))⟩
  · rw [slots]
    exact others
  · rw [slots]
    exact alone

/-- The exposed plate leaves a queue in which it stood alone. -/
theorem Finishes.left {q : Part} (h : p.Finishes k n i q) (queue : p.channels[k].queue = [n]) :
    (q.leaveExposing k n afterDone).plates = q.plates ∧ (q.leaveExposing k n afterDone).slots = q.slots
      ∧ (q.leaveExposing k n afterDone).sets = q.sets
      ∧ (q.leaveExposing k n afterDone).channels = p.channels.set k
        { p.channels[k] with queue := [], state := .idle, idlePending := true, cursors := [] }
      ∧ q.Only [.channels, .mem, .port] (q.leaveExposing k n afterDone) := by
  have channels := q.leaveExposing_channels k n afterDone
  have only := q.leaveExposing_only k n afterDone
  have alone : [n].filter (· != n) = [] := by simp
  rw [Vector.get_of_eq_set h.channels, h.channels, Vector.set_set, queue, alone] at channels
  refine ⟨only .plates (by simp), only .slots (by simp), only .sets (by simp), channels.trans ?_, only⟩
  rw [show (p.channels[k].idlePending || afterDone [] == .idle) = true from Bool.or_true _]
  rfl

/-- The last block of a plate that stands alone in its queue, with no window CLOSING. -/
theorem endPlate_last (uses : p.plates[n].copy.screenSet = i) (queue : p.channels[k].queue = [n])
    (ready : p.channels[k].ready = []) (none : ∀ w : Fin 16, p.windows[w].state ≠ .closing) :
    p.endPlate k n = ((p.doneWork k n).tellDone n).leaveExposing k n afterDone := by
  have finishes := (doneWork_finishes (k := k) uses).told
  rw [endPlate_eq]
  generalize (p.doneWork k n).tellDone n = q at finishes
  obtain ⟨-, -, -, channels, only⟩ := finishes.left queue
  generalize q.leaveExposing k n afterDone = r at channels only
  have windows : r.windows = p.windows := (only .windows (by simp)).trans (finishes.only .windows (by simp))
  rw [feed_empty (by rw [Vector.get_of_eq_set channels]; exact ready)]
  exact endClosing_none fun w => by rw [windows]; exact none w

end
end Part

/-- Settles O37. -/
theorem finalBlockEndsThePlate : Obligations.FinalBlockEndsThePlate := by
  intro k s h up held prepared live last queue ready none x plate
  have run := State.composeBlock_live up held prepared live
  have keeps : s.part.Keeps (s.part.accountBlock k h x) := (Part.Keeps.refl _).accountBlock
  have last : h.offset + 64 = h.copy.rasterBytes := last
  rw [show s.part.compose k h s.tiles = x from rfl, Part.accountBlock_eq, if_pos last] at run
  rw [Part.accountBlock_eq, if_pos last] at keeps
  clear_value x
  obtain ⟨plates, ⟨d, m, channels⟩, only, -⟩ := s.part.accounted_spec k h x
  have account := Vector.get_of_eq_set channels
  have windows : (s.part.accounted k h x).windows = s.part.windows := only .windows (by simp)
  have slots : (s.part.accounted k h x).slots = s.part.slots := only .slots (by simp)
  have sets : (s.part.accounted k h x).sets = s.part.sets := only .sets (by simp)
  have tick : (s.part.accounted k h x).tick = s.part.tick := only .tick (by simp)
  generalize s.part.accounted k h x = a at *
  have own := Vector.get_of_eq_set plates
  have uses : a.plates[h.plate].copy.screenSet = plate.copy.screenSet := by rw [own]; rfl
  have queued : a.channels[k].queue = [h.plate] := by rw [account]; exact queue
  rw [Part.endPlate_last uses queued (by rw [account]; exact ready) fun w => by rw [windows]; exact none w]
    at run keeps
  have finishes := (Part.doneWork_finishes (k := k) uses).told
  generalize (a.doneWork k h.plate).tellDone h.plate = b at *
  obtain ⟨plates', slots', sets', channels', left⟩ := finishes.left queued
  obtain ⟨ended, others, alone, used, -, work⟩ := finishes
  have all := ((only.mono (more := [.plates, .channels, .sets, .slots, .orphans, .reports, .mem, .port])
      (by simp)).trans
    work).trans (left.mono (by simp))
  generalize b.leaveExposing k h.plate afterDone = q at *
  have done : q.plates = s.part.plates.set h.plate
      (a.donePlate k (Part.accountedPlate s.part.plates[h.plate] h x.cause)).unpinned := by
    rw [plates', ended, own, plates, Vector.set_set]
  have final := Vector.get_of_eq_set done
  have channel := Vector.get_of_eq_set channels'
  have pins (m : Fin 512) (i : Fin 4) : a.pinsSlot h.plate m i ↔ s.part.pinsSlot h.plate m i := by
    rw [Part.pinsSlot, own, Part.pinsSlot]
    rfl
  rw [Part.donePlate, account, tick] at final
  refine ⟨_, run, rfl, by rw [final]; rfl, by rw [final]; rfl, by rw [final]; rfl, by rw [final]; rfl,
    fun i => ?_, fun m free => ?_, fun m i pinned slot single => ?_, ?_, by rw [channel], by rw [channel],
    by rw [channel, account], by rw [channel], fun j other => ?_, all .windows (by simp), all .params (by simp),
    all .units (by simp), all .parsers (by simp), all .filters (by simp), all .owners (by simp), rfl, keeps.owned⟩
  · rw [final, Plate.unpinned]
    dsimp only
    rw [Fin.getElem_fin, Vector.getElem_map]
    rfl
  · dsimp only
    rw [slots', others m fun i h => free i ((pins m i).mp h), slots]
  · have released := alone m i ((pins m i).mpr ⟨pinned, slot⟩) fun j other h => single j other ((pins m j).mp h)
    rw [slots, ← slots'] at released
    exact released
  · dsimp only
    rw [sets', used, sets]
    exact congrArg ScreenSet.use Vector.set_same
  · rw [done]
    exact Vector.set_other other

end Sys2Proof.Machine
end

section
/-! SUPPORT. What the intake of a block of an intake window changes (chapter 1). -/

namespace Sys2Proof.Machine
namespace Part

section
variable (p : Part) (b : ParserBlock)

theorem finishParcel_only : p.Only [.parsers, .transit, .reports, .mem, .port] (p.finishParcel b) := by
  unfold finishParcel
  dsimp only
  split
  · exact Only.refl _ p
  · split
    · exact ((Only.refl _ p).changeParser).raise
    · exact ((Only.refl _ p).setTransit).changeParser
    · exact (Only.refl _ p).changeParser
    · exact (Only.refl _ p).changeParser

theorem startParcel_only (resync : Bool) :
    p.Only [.parsers, .filters, .transit, .reports, .mem, .port] (p.startParcel b resync) := by
  unfold startParcel
  dsimp only
  have checked : p.Only [.parsers, .filters, .transit, .reports, .mem, .port]
      (p.changeParser b.stream fun x => { x with
        resyncs := if resync then satInc Config.max32 x.resyncs else x.resyncs }.checkSequence
          (parseHeader b.bytes b.index).sequence) := (Only.refl _ p).changeParser
  generalize (p.changeParser b.stream fun x => { x with
    resyncs := if resync then satInc Config.max32 x.resyncs else x.resyncs }.checkSequence
      (parseHeader b.bytes b.index).sequence) = a at checked
  have gap := checked.trans ((a.reportGap_only b.stream
    (sequenceCheck p.parsers[b.stream].sequence (parseHeader b.bytes b.index).sequence) b.addr).mono (by simp))
  generalize a.reportGap b.stream
    (sequenceCheck p.parsers[b.stream].sequence (parseHeader b.bytes b.index).sequence) b.addr = c at gap
  have decided := gap.trans ((c.decideHeader_only (parseHeader b.bytes b.index)
    ((parseHeader b.bytes b.index).fieldFault b.count)).mono (by simp))
  generalize c.decideHeader (parseHeader b.bytes b.index)
    ((parseHeader b.bytes b.index).fieldFault b.count) = d at decided
  have loaded := decided.changeParser (k := b.stream) (f := fun x => x.load (parseHeader b.bytes b.index)
    ((parseHeader b.bytes b.index).fieldFault b.count) d.2.1 d.2.2 (b.successor b.index))
  split
  · exact loaded.trans ((finishParcel_only _ b).mono (by simp))
  · exact loaded

theorem huntBlock_only : p.Only [.parsers, .filters, .transit, .reports, .mem, .port] (p.huntBlock b) := by
  unfold huntBlock
  split
  · exact p.startParcel_only b true
  · exact (p.stray_only b.stream).mono (by simp)

theorem seekBlock_only : p.Only [.parsers, .filters, .transit, .reports, .mem, .port] (p.seekBlock b) := by
  unfold seekBlock
  dsimp only
  split
  · exact p.startParcel_only b _
  · split
    · exact ((Only.refl _ p).changeParser).raise
    · exact (p.stray_only b.stream).mono (by simp)

theorem reportBroken_only (k : Fin 4) (x : Parser) (cause : BreakCause) (addr : Option Nat) :
    p.Only [.reports, .mem, .port] (p.reportBroken k x cause addr) := by
  unfold reportBroken
  split
  · exact Only.refl _ p
  · exact (Only.refl _ p).raise

theorem payloadBlock_only : p.Only [.parsers, .filters, .transit, .reports, .mem, .port] (p.payloadBlock b) := by
  unfold payloadBlock
  dsimp only
  split
  · split
    · exact ((Only.refl _ p).setParser).trans ((finishParcel_only _ b).mono (by simp))
    · exact (Only.refl _ p).setParser
  · exact (((Only.refl _ p).changeParser).trans ((reportBroken_only _ _ _ _ _).mono (by simp))).trans
      (huntBlock_only _ b)

theorem parserBlock_only : p.Only [.parsers, .filters, .transit, .reports, .mem, .port] (p.parserBlock b) := by
  unfold parserBlock
  split
  · exact p.seekBlock_only b
  · exact p.huntBlock_only b
  · exact p.payloadBlock_only b

end
end Part
end Sys2Proof.Machine
end

section
/-! SUPPORT. What plate control does to one plate at a time (chapter 6): the slots keep their entries, or are freed;
the other plates stay as they are, and on no more READY lists. -/

namespace Sys2Proof.Machine

/-- A slot keeps its entries and its use, or it is freed. -/
def slotStays (x y : Slot) : Prop :=
  (y.inUse = false ∧ ∀ b : Fin 64, y.bands[b].state = .absent)
    ∨ (y.bands = x.bands ∧ y.tones = x.tones ∧ y.geom = x.geom ∧ y.inUse = x.inUse)

theorem slotStays.refl (x : Slot) : slotStays x x := Or.inr ⟨rfl, rfl, rfl, rfl⟩

theorem slotStays.trans {x y z : Slot} (h : slotStays x y) (g : slotStays y z) : slotStays x z := by
  rcases g with freed | ⟨bands, tones, geom, inUse⟩
  · exact Or.inl freed
  · rcases h with ⟨free, absent⟩ | ⟨bands', tones', geom', inUse'⟩
    · exact Or.inl ⟨inUse.trans free, fun b => by rw [bands]; exact absent b⟩
    · exact Or.inr ⟨bands.trans bands', tones.trans tones', geom.trans geom', inUse.trans inUse'⟩

/-- A slot that is not whole does not become whole (R35). -/
theorem slotStays.whole {x y : Slot} (h : slotStays x y) (broken : x.whole = false) : y.whole = false := by
  rcases h with ⟨free, -⟩ | ⟨bands, tones, geom, inUse⟩
  · rw [Slot.whole, free, Bool.false_and]
  · unfold Slot.whole Slot.entryList Slot.bandList Slot.toneList at *
    rw [bands, tones, geom, inUse]
    exact broken

namespace Part

/-- What an act of plate control on plate `j` leaves. -/
structure ActsOn (p : Part) (j : Fin 64) (q : Part) : Prop where
  slots : ∀ m : Fin 512, slotStays p.slots[m] q.slots[m]
  plates : ∀ m : Fin 64, m ≠ j → q.plates[m] = p.plates[m]
  ready : ∀ m : Fin 64, m ≠ j → ∀ k : Fin 2, m ∈ q.channels[k].ready → m ∈ p.channels[k].ready

/-- A released pin leaves every slot its entries, or frees the slot (R26, R39). -/
theorem releasePin_stays (p : Part) (n m : Fin 512) : slotStays p.slots[m] (p.releasePin n).slots[m] := by
  by_cases same : m = n
  · subst same
    have slot := p.changeSlot_get m fun s => { s with pins := s.pins - 1 }
    unfold releasePin
    dsimp only
    generalize (p.changeSlot m fun s => { s with pins := s.pins - 1 }) = a at slot
    split
    · have freed := Vector.get_of_eq_set (a.freeSlot_slots m)
      generalize a.freeSlot m = r at freed
      rw [freed]
      refine Or.inl ⟨rfl, fun b => ?_⟩
      rw [Fin.getElem_fin, Vector.getElem_replicate]
    · rw [slot]
      exact Or.inr ⟨rfl, rfl, rfl, rfl⟩
  · rw [releasePin_get_ne p same]
    exact slotStays.refl _

namespace ActsOn

variable {p q r : Part} {j : Fin 64}

theorem refl (p : Part) (j : Fin 64) : p.ActsOn j p := ⟨fun _ => slotStays.refl _, fun _ _ => rfl, fun _ _ _ h => h⟩

theorem trans (h : p.ActsOn j q) (g : q.ActsOn j r) : p.ActsOn j r :=
  ⟨fun m => (h.slots m).trans (g.slots m), fun m other => (g.plates m other).trans (h.plates m other),
    fun m other k listed => h.ready m other k (g.ready m other k listed)⟩

variable (h : p.ActsOn j q)
include h

/-- Work that writes neither slots, plates nor channels. -/
theorem only {changed : List Table} (work : q.Only changed r)
    (apart : ∀ x ∈ [Table.slots, .plates, .channels], x ∉ changed := by simp) : p.ActsOn j r := by
  have slots : r.slots = q.slots := work _ (apart .slots (by simp))
  have plates : r.plates = q.plates := work _ (apart .plates (by simp))
  have channels : r.channels = q.channels := work _ (apart .channels (by simp))
  refine h.trans ⟨fun m => ?_, fun m _ => by rw [plates], fun m _ k listed => by rw [← channels]; exact listed⟩
  rw [slots]
  exact slotStays.refl _

theorem raise {kind : ReportKind} {x : Subject} : p.ActsOn j (q.raise kind x) :=
  h.only (changed := [.mem, .port, .reports]) (Only.refl _ q).raise

theorem plateStatus {n : Fin 64} : p.ActsOn j (q.plateStatus n) :=
  h.only (changed := [.mem, .port]) (Only.refl _ q).plateStatus

theorem changeUse {i : Fin 8} {f : Nat → Nat} : p.ActsOn j (q.changeUse i f) := h.only (q.changeUse_only i f)

theorem dropUse : p.ActsOn j (q.dropUse j) := h.only (q.dropUse_only j)

theorem changePlate {f : Plate → Plate} : p.ActsOn j (q.changePlate j f) :=
  h.trans ⟨fun _ => slotStays.refl _, fun _ other => Vector.set_other other, fun _ _ _ listed => listed⟩

theorem releasePin {n : Fin 512} : p.ActsOn j (q.releasePin n) := by
  have only : q.Only [.mem, .port, .reports, .orphans, .slots] (q.releasePin n) := (Only.refl _ q).releasePin
  have plates : (q.releasePin n).plates = q.plates := only .plates (by simp)
  have channels : (q.releasePin n).channels = q.channels := only .channels (by simp)
  exact h.trans ⟨q.releasePin_stays n, fun m _ => by rw [plates], fun m _ k listed => by rw [← channels]; exact listed⟩

theorem unpinAll : p.ActsOn j (q.unpinAll j) := by
  refine forEach_keeps (p.ActsOn j) _ (fun a k ha => ?_) q h
  unfold Part.unpin
  dsimp only
  split
  · exact ha.changePlate.releasePin
  · exact ha

theorem setLists {k : Fin 2} {ready queue : List (Fin 64)}
    (sub : ∀ m : Fin 64, m ≠ j → m ∈ ready → m ∈ q.channels[k].ready) : p.ActsOn j (q.setLists k ready queue) := by
  have only := q.setLists_only k ready queue
  have channels := q.setLists_channels k ready queue
  generalize q.setLists k ready queue = r at only channels
  have slots : r.slots = q.slots := only .slots (by simp)
  have plates : r.plates = q.plates := only .plates (by simp)
  refine h.trans ⟨fun m => by rw [slots]; exact slotStays.refl _, fun m _ => by rw [plates], fun m other i listed => ?_⟩
  by_cases here : i = k
  · subst here
    rw [Vector.get_of_eq_set channels, (Channel.follow_lists _).1] at listed
    exact sub m other listed
  · rw [channels, Vector.set_other here] at listed
    exact listed

theorem leaveLists : p.ActsOn j (q.leaveLists j) := h.setLists fun _ _ listed => (List.mem_filter.mp listed).1

theorem becomeReady {forced : Bool} : p.ActsOn j (q.becomeReady j forced) := by
  refine h.changePlate.setLists fun m other listed => ?_
  rcases List.mem_append.mp listed with before | last
  · exact before
  · exact absurd (List.mem_singleton.mp last) other

theorem failState {cause : FailureCause} : p.ActsOn j (q.failState j cause) := by
  unfold Part.failState
  exact h.changePlate.leaveLists.unpinAll

theorem failPlate {cause : FailureCause} {tail : List Byte} : p.ActsOn j (q.failPlate j cause tail) :=
  h.failState.plateStatus.raise

theorem deadlineAction : p.ActsOn j (q.deadlineAction j) := by
  unfold Part.deadlineAction
  split
  · exact h.failPlate
  · exact h.becomeReady

theorem enterWaiting : p.ActsOn j (q.enterWaiting j) := by
  unfold Part.enterWaiting
  split
  · exact h.becomeReady
  · split
    · exact h.deadlineAction
    · exact h

theorem backToWaiting {f : Plate → Plate} : p.ActsOn j (q.backToWaiting j f) := by
  unfold Part.backToWaiting
  dsimp only
  split
  · exact h.changePlate.leaveLists.dropUse
  · exact h.changePlate.leaveLists

theorem holdPlate {k : Fin 4} {slot : Fin 512} {ref : EntryRef} : p.ActsOn j (q.holdPlate j k slot ref) :=
  h.backToWaiting.raise.enterWaiting

end ActsOn

/-- The head of a READY list admitted, or failed (R89, R112). -/
theorem admitHead_acts {p : Part} {k : Fin 2} {n : Fin 64} {rest : List (Fin 64)}
    (ready : p.channels[k].ready = n :: rest) : p.ActsOn n (p.admitHead k) := by
  by_cases loaded : p.sets[p.plates[n].copy.screenSet].state = .loaded
  · rw [admitHead_admits ready loaded]
    have uses : p.ActsOn n (p.usesSet n p.plates[n].copy.screenSet) := ((ActsOn.refl p n).changeUse).changePlate
    refine ActsOn.raise (uses.setLists fun m _ listed => ?_)
    rw [usesSet_channels, ready]
    exact List.mem_cons_of_mem n listed
  · unfold admitHead
    rw [ready]
    dsimp only
    rw [if_neg loaded]
    exact (ActsOn.refl p n).failPlate

end Part
end Sys2Proof.Machine
end

section
/-! SUPPORT. An entry leaves GOOD (R36), and the hold policy over all plates (R117). -/

namespace Sys2Proof.Machine

/-! ## Folds that pass one element -/

/-- A fold whose acts keep an invariant, and then a goal that the act of one element brings about, ends in the goal. -/
theorem foldl_reaches {α β : Type} {kept goal : α → Prop} {act : α → β → α} {l : List β} {x : β} {a : α} (mem : x ∈ l)
    (keeps : ∀ a y, kept a → kept (act a y)) (stays : ∀ a y, goal a → goal (act a y))
      (hits : ∀ a, kept a → goal (act a x))
    (start : kept a) : goal (l.foldl act a) := by
  obtain ⟨before, after, rfl⟩ := List.append_of_mem mem
  rw [List.foldl_append, List.foldl_cons]
  exact foldl_keeps goal act stays after _ (hits _ (foldl_keeps kept act keeps before a start))

/-- A fold whose acts on the listed elements keep an invariant. -/
theorem foldl_keeps_of_mem {α β : Type} {kept : α → Prop} {act : α → β → α} {l : List β}
    (keeps : ∀ a, ∀ y ∈ l, kept a → kept (act a y)) {a : α} (start : kept a) : kept (l.foldl act a) := by
  induction l generalizing a with
  | nil => exact start
  | cons y rest ih =>
    exact ih (fun a z member => keeps a z (List.mem_cons_of_mem y member)) (keeps a y List.mem_cons_self start)

/-- An act for each number, before and after one of them. -/
theorem forEach_around {α : Type} {n : Nat} (act : α → Fin n → α) (a : α) (i : Fin n) :
    ∃ before after : List (Fin n), i ∉ before ∧ i ∉ after
      ∧ forEach n act a = after.foldl act (act (before.foldl act a) i) := by
  obtain ⟨before, after, list⟩ := List.append_of_mem (List.mem_finRange i)
  have distinct := List.nodup_finRange n
  rw [list] at distinct
  obtain ⟨-, rest, apart⟩ := List.nodup_append.mp distinct
  refine ⟨before, after, fun h => apart i h i List.mem_cons_self rfl, (List.nodup_cons.mp rest).1, ?_⟩
  rw [forEach, list, List.foldl_append, List.foldl_cons]

namespace Part

/-! ## Plates that are spared -/

/-- What acts of plate control leave: the slots' entries, the spared plates, and which of them stand READY. -/
structure Spares (p : Part) (spared : Fin 64 → Prop) (q : Part) : Prop where
  slots : ∀ m : Fin 512, slotStays p.slots[m] q.slots[m]
  plates : ∀ m : Fin 64, spared m → q.plates[m] = p.plates[m]
  ready : ∀ m : Fin 64, spared m → ∀ k : Fin 2, m ∈ q.channels[k].ready → m ∈ p.channels[k].ready

theorem ActsOn.spares {p q : Part} {j : Fin 64} {spared : Fin 64 → Prop} (h : p.ActsOn j q) (other : ¬ spared j) :
    p.Spares spared q :=
  ⟨h.slots, fun m own => h.plates m fun same => other (same ▸ own),
    fun m own => h.ready m fun same => other (same ▸ own)⟩

namespace Spares

variable {p q r : Part} {spared : Fin 64 → Prop}

theorem refl (p : Part) (spared : Fin 64 → Prop) : p.Spares spared p :=
  ⟨fun _ => slotStays.refl _, fun _ _ => rfl, fun _ _ _ h => h⟩

theorem trans (h : p.Spares spared q) (g : q.Spares spared r) : p.Spares spared r :=
  ⟨fun m => (h.slots m).trans (g.slots m), fun m own => (g.plates m own).trans (h.plates m own),
    fun m own k listed => h.ready m own k (g.ready m own k listed)⟩

/-- No spared plate stands on a READY list. -/
def absent (spared : Fin 64 → Prop) (p : Part) : Prop :=
  ∀ m : Fin 64, spared m → ∀ k : Fin 2, m ∉ p.channels[k].ready

theorem still (h : p.Spares spared q) (none : absent spared p) : absent spared q :=
  fun m own k listed => none m own k (h.ready m own k listed)

theorem admissions (k : Fin 2) (n : Nat) (none : absent spared p) : p.Spares spared (p.admissions k n) := by
  induction n generalizing p with
  | zero => exact refl p spared
  | succ n ih =>
    unfold Part.admissions
    split
    · cases list : p.channels[k].ready with
      | nil =>
        have idle : p.admitHead k = p := by rw [admitHead, list]
        rw [idle]
        exact ih none
      | cons m rest =>
        have head := (admitHead_acts list).spares (spared := spared) fun own =>
          none m own k (list ▸ List.mem_cons_self)
        exact head.trans (ih (head.still none))
    · exact refl p spared

theorem feedAll (none : absent spared p) : p.Spares spared p.feedAll := by
  have first : p.Spares spared (p.feed 0) := admissions 0 _ none
  exact first.trans (admissions 1 _ (first.still none))

end Spares

/-! ## The hold policy over all plates (R117) -/

/-- The hold policy of one plate. -/
def holdOne (slot : Fin 512) (ref : EntryRef) (p : Part) (n : Fin 64) : Part :=
  match p.plates[n].pinnedTo slot with
  | none => p
  | some k =>
    if p.plates[n].listed && p.plates[n].copy.hold == .hold && !p.plates[n].forced then p.holdPlate n k slot ref else p

theorem tellNotWhole_eq (p : Part) (slot : Fin 512) (ref : EntryRef) :
    p.tellNotWhole slot ref = (forEach 64 (holdOne slot ref) p).feedAll := rfl

theorem holdOne_acts (slot : Fin 512) (ref : EntryRef) (p : Part) (n : Fin 64) : p.ActsOn n (holdOne slot ref p n) := by
  unfold holdOne
  split
  · exact ActsOn.refl p n
  · split
    · exact (ActsOn.refl p n).holdPlate
    · exact ActsOn.refl p n

theorem tellNotWhole_stays (p : Part) (slot : Fin 512) (ref : EntryRef) (m : Fin 512) :
    slotStays p.slots[m] (p.tellNotWhole slot ref).slots[m] := by
  have held : p.Spares (fun _ => False) (forEach 64 (holdOne slot ref) p) :=
    forEach_keeps _ _ (fun a k ha => ha.trans ((holdOne_acts slot ref a k).spares id)) p (Spares.refl p _)
  exact (held.trans (Spares.feedAll fun _ own => own.elim)).slots m

end Part
end Sys2Proof.Machine
end

section
/-! SUPPORT. The trample monitor (R149, R150): the entries that a block meets. -/

namespace Sys2Proof.Machine

/-- The block meets the GOOD band `b` of the slot (R149). -/
def Slot.meetsBand (x : Slot) (b : Fin 64) (block : Nat) : Prop :=
  x.inUse = true ∧ b.val < x.geom.bandCount ∧ x.bands[b].state = .good ∧ x.bands[b].loc.meets block = true

/-- The band is not GOOD, and TRAMPLED while its slot is in use (R150). -/
def Slot.spoiled (x : Slot) (b : Fin 64) : Prop :=
  x.bands[b].state ≠ .good ∧ (x.inUse = true → x.bands[b].state = .trampled)

section
variable {x y : Slot} {b : Fin 64} {block : Nat}

theorem slotStays.spoiled (h : slotStays x y) (bad : x.spoiled b) : y.spoiled b := by
  rcases h with ⟨free, absent⟩ | ⟨bands, -, -, inUse⟩
  · exact ⟨by rw [absent b]; decide, fun used => absurd (free.symm.trans used) Bool.false_ne_true⟩
  · rw [Slot.spoiled, bands, inUse]
    exact bad

theorem slotStays.meetsBand (h : slotStays x y) (met : x.meetsBand b block) :
    y.meetsBand b block ∨ y.spoiled b := by
  rcases h with ⟨free, absent⟩ | ⟨bands, -, geom, inUse⟩
  · exact Or.inr ⟨by rw [absent b]; decide, fun used => absurd (free.symm.trans used) Bool.false_ne_true⟩
  · rw [Slot.meetsBand, bands, geom, inUse]
    exact Or.inl met

/-- The numbers of a table's first entries, with the entries. -/
theorem mem_take_numbered {α : Type} {n count : Nat} (v : Vector α n) (i : Fin n) (inside : i.val < count) :
    (i, v[i]) ∈ (numbered v).take count := by
  refine List.mem_take_iff_getElem.mpr ⟨i.val, ?_, ?_⟩
  · rw [numbered_eq, List.length_map, List.length_finRange]
    exact lt_min inside i.isLt
  · simp [numbered_eq]

theorem mem_metEntries_band (met : x.meetsBand b block) : .band b ∈ x.metEntries block := by
  obtain ⟨inUse, inside, good, meets⟩ := met
  unfold Slot.metEntries
  rw [if_pos inUse]
  refine List.mem_append_left _ (List.mem_map.mpr
    ⟨_, List.mem_filter.mpr ⟨mem_take_numbered x.bands b inside, ?_⟩, rfl⟩)
  dsimp only
  rw [good, meets]
  rfl

end

namespace Part

/-! ## An entry leaves GOOD (R36) -/

section
variable (p : Part) (n : Fin 512) (ref : EntryRef) (state : EntryState) (detail : Detail) (d : DamageInfo)

/-- The entry as it leaves GOOD. -/
def failedEntry (e : Entry) (state : EntryState) (detail : Detail) : Entry :=
  { e with state := state, detail := detail, repeats := 0 }

/-- Cursors interrupted, the entry marked and its damage told. -/
def lostEntry : Part :=
  ((p.interruptCursors { slot := n, alloc := p.slots[n].alloc } ref).changeSlot n fun s =>
    s.setEntry ref (failedEntry (s.entry ref) state detail)).damaged n ref d

/-- A COMPLETE page that is FILLING again, and PAGE_INCOMPLETE. -/
def reopened (x : Slot) : Part :=
  (p.changeSlot n fun s => { s with state := .filling, deadline := some p.gapDeadline }).raise .pageIncomplete
    (.page { x.form n with kind := ref.kindCode, index := ref.index })

/-- The part once an entry has left GOOD, plate control not yet told. -/
def leftGood : Part :=
  if p.slots[n].state = .complete then (p.lostEntry n ref state detail d).reopened n ref p.slots[n]
  else p.lostEntry n ref state detail d

theorem leaveGood_eq :
    p.leaveGood n ref state detail d
      = if p.slots[n].whole then (p.leftGood n ref state detail d).tellNotWhole n ref
        else p.leftGood n ref state detail d := rfl

/-- What an entry that leaves GOOD changes of the part before plate control is told. -/
structure LosesEntry (p : Part) (n : Fin 512) (x : Slot) (q : Part) : Prop where
  others : ∀ m : Fin 512, m ≠ n → q.slots[m] = p.slots[m]
  bands : q.slots[n].bands = x.bands
  tones : q.slots[n].tones = x.tones
  geom : q.slots[n].geom = x.geom
  inUse : q.slots[n].inUse = x.inUse
  plates : q.plates = p.plates
  ready : ∀ k : Fin 2, q.channels[k].ready = p.channels[k].ready

theorem damaged_only : p.Only [.reports, .mem, .port] (p.damaged n ref d) := by
  unfold damaged
  dsimp only
  have counted : p.Only [.reports, .mem, .port] (p.countDamage p.slots[n].id.sep) := by
    unfold countDamage
    dsimp only
    split
    · exact ((Only.refl _ p).setReports).headerWrite
    · exact Only.refl _ p
  generalize p.countDamage p.slots[n].id.sep = a at counted
  exact Only.ite counted.raise.raise counted.raise

theorem lostEntry_loses :
    p.LosesEntry n (p.slots[n].setEntry ref (failedEntry (p.slots[n].entry ref) state detail))
      (p.lostEntry n ref state detail d) := by
  have slots : (p.interruptCursors { slot := n, alloc := p.slots[n].alloc } ref).slots = p.slots := rfl
  have plates : (p.interruptCursors { slot := n, alloc := p.slots[n].alloc } ref).plates = p.plates := rfl
  have ready (k : Fin 2) : (p.interruptCursors { slot := n, alloc := p.slots[n].alloc } ref).channels[k].ready
      = p.channels[k].ready := by
    unfold interruptCursors
    dsimp only
    rw [Fin.getElem_fin, Vector.getElem_map]
    rfl
  unfold lostEntry
  generalize p.interruptCursors { slot := n, alloc := p.slots[n].alloc } ref = a at slots plates ready
  have own := a.changeSlot_get n fun s => s.setEntry ref (failedEntry (s.entry ref) state detail)
  have other (m : Fin 512) (h : m ≠ n) := a.changeSlot_get_ne n m
    (fun s => s.setEntry ref (failedEntry (s.entry ref) state detail)) h
  have only : a.Only [.slots, .mem, .port] (a.changeSlot n fun s =>
    s.setEntry ref (failedEntry (s.entry ref) state detail)) := (Only.refl _ a).changeSlot
  generalize (a.changeSlot n fun s => s.setEntry ref (failedEntry (s.entry ref) state detail)) = b at own other only
  have damage := b.damaged_only n ref d
  generalize b.damaged n ref d = c at damage
  have same : c.slots = b.slots := damage .slots (by simp)
  have channels : c.channels = a.channels := (damage .channels (by simp)).trans (only .channels (by simp))
  rw [slots] at own other
  refine ⟨fun m h => by rw [same]; exact other m h, by rw [same, own], by rw [same, own], by rw [same, own], ?_,
    (damage .plates (by simp)).trans ((only .plates (by simp)).trans plates), fun k => by rw [channels]; exact ready k⟩
  rw [same, own]
  rfl

theorem leftGood_loses :
    p.LosesEntry n (p.slots[n].setEntry ref (failedEntry (p.slots[n].entry ref) state detail))
      (p.leftGood n ref state detail d) := by
  have lost := p.lostEntry_loses n ref state detail d
  unfold leftGood
  generalize p.lostEntry n ref state detail d = a at lost ⊢
  split
  · rename_i complete
    obtain ⟨others, bands, tones, geom, inUse, plates, ready⟩ := lost
    have used : (p.slots[n].setEntry ref (failedEntry (p.slots[n].entry ref) state detail)).inUse = true := by
      have kept : (p.slots[n].setEntry ref (failedEntry (p.slots[n].entry ref) state detail)).state
          = p.slots[n].state := by
        cases ref <;> rfl
      rw [Slot.inUse, kept, complete]
      rfl
    unfold reopened
    have own := a.changeSlot_get n fun s => { s with state := .filling, deadline := some a.gapDeadline }
    have other (m : Fin 512) (h : m ≠ n) := a.changeSlot_get_ne n m
      (fun s => { s with state := .filling, deadline := some a.gapDeadline }) h
    have only : a.Only [.slots, .mem, .port] (a.changeSlot n fun s =>
      { s with state := .filling, deadline := some a.gapDeadline }) := (Only.refl _ a).changeSlot
    generalize (a.changeSlot n fun s => { s with state := .filling, deadline := some a.gapDeadline })
        = b at own other only
    have channels : b.channels = a.channels := only .channels (by simp)
    refine ⟨fun m h => ?_, ?_, ?_, ?_, ?_, (raise_plates _ _ _).trans ((only .plates (by simp)).trans plates),
      fun k => ?_⟩
    · rw [raise_slots, other m h]
      exact others m h
    · rw [raise_slots, own]
      exact bands
    · rw [raise_slots, own]
      exact tones
    · rw [raise_slots, own]
      exact geom
    · rw [raise_slots, own, used]
      rfl
    · rw [raise_channels, channels]
      exact ready k
  · exact lost

end

end Part
end Sys2Proof.Machine
end

section
/-! SUPPORT. A block that meets a GOOD band spoils it (R149, R150). -/

namespace Sys2Proof.Machine

section
variable {x y : Slot} {b : Fin 64} {block : Nat} {ref : EntryRef} {detail : Detail}
  (bands : y.bands = (x.setEntry ref (Part.failedEntry (x.entry ref) .trampled detail)).bands)
include bands

/-- Band `b` of a slot of which an entry has been trampled: that entry, or unchanged. -/
theorem trampled_band : (ref = .band b → y.bands[b].state = .trampled) ∧ (ref ≠ .band b → y.bands[b] = x.bands[b]) := by
  cases ref with
  | band c =>
    have set : y.bands = x.bands.set c (Part.failedEntry x.bands[c] .trampled detail) := bands
    refine ⟨fun same => ?_, fun other => ?_⟩
    · obtain rfl : c = b := EntryRef.band.inj same
      rw [Vector.get_of_eq_set set]
      rfl
    · rw [set, Vector.set_other fun same => other (congrArg EntryRef.band same.symm)]
  | tone r =>
    have same : y.bands = x.bands := bands
    exact ⟨fun h => (nomatch h), fun _ => by rw [same]⟩

theorem trampled_spoils (here : ref = .band b) : y.spoiled b := by
  have state := (trampled_band bands).1 here
  exact ⟨by rw [state]; decide, fun _ => state⟩

variable (geom : y.geom = (x.setEntry ref (Part.failedEntry (x.entry ref) .trampled detail)).geom)
  (inUse : y.inUse = (x.setEntry ref (Part.failedEntry (x.entry ref) .trampled detail)).inUse)
include inUse

theorem trampled_keeps_spoiled (bad : x.spoiled b) : y.spoiled b := by
  by_cases here : ref = .band b
  · exact trampled_spoils bands here
  · have same : y.inUse = x.inUse := by rw [inUse]; cases ref <;> rfl
    rw [Slot.spoiled, (trampled_band bands).2 here, same]
    exact bad

include geom

theorem trampled_keeps_met (met : x.meetsBand b block) : y.meetsBand b block ∨ y.spoiled b := by
  by_cases here : ref = .band b
  · exact Or.inr (trampled_spoils bands here)
  · have same : y.inUse = x.inUse := by rw [inUse]; cases ref <;> rfl
    have kept : y.geom = x.geom := by rw [geom]; cases ref <;> rfl
    rw [Slot.meetsBand, (trampled_band bands).2 here, same, kept]
    exact Or.inl met

end

namespace Part

section
variable {p : Part} {n m : Fin 512} {b : Fin 64} {t : Trample} {ref : EntryRef}

/-- What the monitor's damage tells (R163). -/
def trampleDamage (t : Trample) : DamageInfo :=
  { found := .monitor, origin := .source t.source, block := t.block, computed := none }

/-- Plate control leaves the entries of the slots, after an entry has left GOOD. -/
theorem trampleEntry_stays (p : Part) (m : Fin 512) (t : Trample) (ref : EntryRef) (n : Fin 512) :
    slotStays (p.leftGood m ref .trampled (.trample t) (trampleDamage t)).slots[n]
      (p.trampleEntry m t ref).slots[n] := by
  have left := p.leaveGood_eq m ref .trampled (.trample t) (trampleDamage t)
  rw [show p.trampleEntry m t ref = p.leaveGood m ref .trampled (.trample t) (trampleDamage t) from rfl, left]
  split
  · exact tellNotWhole_stays _ _ _ _
  · exact slotStays.refl _

theorem trampleEntry_spoils (p : Part) (n : Fin 512) (t : Trample) (b : Fin 64) :
    ((p.trampleEntry n t (.band b)).slots[n]).spoiled b := by
  have lost := p.leftGood_loses n (.band b) .trampled (.trample t) (trampleDamage t)
  exact (p.trampleEntry_stays n t (.band b) n).spoiled (trampled_spoils lost.bands rfl)

theorem trampleEntry_spoiled (bad : p.slots[n].spoiled b) : ((p.trampleEntry m t ref).slots[n]).spoiled b := by
  have lost := p.leftGood_loses m ref .trampled (.trample t) (trampleDamage t)
  refine (p.trampleEntry_stays m t ref n).spoiled ?_
  by_cases same : n = m
  · subst same
    exact trampled_keeps_spoiled lost.bands lost.inUse bad
  · rw [lost.others n same]
    exact bad

/-- The block meets the band still, or the band is spoiled. -/
def doomed (block : Nat) (n : Fin 512) (b : Fin 64) (p : Part) : Prop :=
  p.slots[n].meetsBand b block ∨ p.slots[n].spoiled b

theorem trampleEntry_doomed {block : Nat} (h : doomed block n b p) : doomed block n b (p.trampleEntry m t ref) := by
  rcases h with met | bad
  · have lost := p.leftGood_loses m ref .trampled (.trample t) (trampleDamage t)
    have stays := p.trampleEntry_stays m t ref n
    have left : (p.leftGood m ref .trampled (.trample t) (trampleDamage t)).slots[n].meetsBand b block
        ∨ (p.leftGood m ref .trampled (.trample t) (trampleDamage t)).slots[n].spoiled b := by
      by_cases same : n = m
      · subst same
        exact trampled_keeps_met lost.bands lost.geom lost.inUse met
      · rw [lost.others n same]
        exact Or.inl met
    rcases left with met | bad
    · exact stays.meetsBand met
    · exact Or.inr (stays.spoiled bad)
  · exact Or.inr (trampleEntry_spoiled bad)

end

section
variable {p : Part} {n m : Fin 512} {b : Fin 64} {t : Trample}

/-- One entry of a slot offered to the monitor, as it stands when its turn comes. -/
def trampleTurn (t : Trample) (n : Fin 512) (p : Part) (ref : EntryRef) : Part :=
  if (p.slots[n].metEntries t.block).contains ref then p.trampleEntry n t ref else p

theorem trampleSlot_eq (p : Part) (t : Trample) (n : Fin 512) :
    p.trampleSlot t n = (p.slots[n].metEntries t.block).foldl (trampleTurn t n) p := rfl

theorem trampleTurn_doomed (ref : EntryRef) (h : doomed t.block n b p) :
    doomed t.block n b (trampleTurn t m p ref) := by
  unfold trampleTurn
  split
  · exact trampleEntry_doomed h
  · exact h

theorem trampleTurn_spoiled (ref : EntryRef) (h : p.slots[n].spoiled b) :
    (trampleTurn t m p ref).slots[n].spoiled b := by
  unfold trampleTurn
  split
  · exact trampleEntry_spoiled h
  · exact h

theorem trampleTurn_hits (h : doomed t.block n b p) : (trampleTurn t n p (.band b)).slots[n].spoiled b := by
  rcases h with met | bad
  · unfold trampleTurn
    rw [if_pos (List.contains_iff_mem.mpr (mem_metEntries_band met))]
    exact p.trampleEntry_spoils n t b
  · exact trampleTurn_spoiled _ bad

theorem trampleSlot_doomed (h : doomed t.block n b p) : doomed t.block n b (p.trampleSlot t m) := by
  rw [trampleSlot_eq]
  exact foldl_keeps (doomed t.block n b) (trampleTurn t m) (fun _ ref => trampleTurn_doomed ref) _ p h

theorem trampleSlot_spoiled (h : p.slots[n].spoiled b) : (p.trampleSlot t m).slots[n].spoiled b := by
  rw [trampleSlot_eq]
  exact foldl_keeps (fun q : Part => q.slots[n].spoiled b) (trampleTurn t m)
    (fun _ ref => trampleTurn_spoiled ref) _ p h

theorem trampleSlot_hits (h : doomed t.block n b p) : (p.trampleSlot t n).slots[n].spoiled b := by
  rcases h with met | bad
  · rw [trampleSlot_eq]
    exact foldl_reaches (kept := doomed t.block n b) (goal := fun q : Part => q.slots[n].spoiled b)
      (act := trampleTurn t n) (mem_metEntries_band met)
      (fun _ ref => trampleTurn_doomed ref) (fun _ ref => trampleTurn_spoiled ref) (fun _ => trampleTurn_hits)
      (Or.inl met)
  · exact trampleSlot_spoiled bad

/-! ## The orphans and the parcels in transit (R150, R152) -/

/-- The slots of the block's extents have had their turns. -/
def trampleSlots (p : Part) (t : Trample) : Part :=
  (p.slotsWhere fun s => !(s.metEntries t.block).isEmpty).foldl (fun p n => p.trampleSlot t n) p

theorem trampleTest_eq (p : Part) (source : Fin 16) (block : Nat) :
    p.trampleTest source block
      = ((p.trampleSlots { source := source.val, block := block }).trampleOrphans
          { source := source.val, block := block }).trampleTransit { source := source.val, block := block } := rfl

theorem trampleRest_only (p : Part) (t : Trample) :
    p.Only [.transit, .orphans, .reports, .mem, .port] ((p.trampleOrphans t).trampleTransit t) := by
  have orphans : p.Only [.transit, .orphans, .reports, .mem, .port] (p.trampleOrphans t) := by
    unfold trampleOrphans
    dsimp only
    exact ((Only.refl _ p).setOrphans).foldl (fun a o => a.orphanDropped o .trampled (some t))
      (fun a o => (Only.refl _ a).orphanDropped) _
  exact orphans.setTransit

theorem trampleSlots_spoils (met : p.slots[n].meetsBand b t.block) : (p.trampleSlots t).slots[n].spoiled b := by
  have turn : n ∈ p.slotsWhere fun s => !(s.metEntries t.block).isEmpty := by
    rw [slotsWhere_eq, List.mem_filter]
    refine ⟨List.mem_finRange n, ?_⟩
    rw [Bool.not_eq_true', List.isEmpty_eq_false_iff]
    exact List.ne_nil_of_mem (mem_metEntries_band met)
  unfold trampleSlots
  generalize (p.slotsWhere fun s => !(s.metEntries t.block).isEmpty) = slots at turn ⊢
  exact foldl_reaches (kept := doomed t.block n b) (goal := fun q : Part => q.slots[n].spoiled b)
    (act := fun q j => q.trampleSlot t j) turn
    (fun _ _ => trampleSlot_doomed) (fun _ _ => trampleSlot_spoiled) (fun _ => trampleSlot_hits) (Or.inl met)

end

/-! ## A forwarded write -/

/-- A write of ordinary memory or of an intake window is offered to the monitor (R149, R167); what comes after that
writes neither slots, plates nor channels. -/
theorem takeWriteBlock_open {p : Part} {w : WriteBlock} (inside : p.openTo w.addr.toNat) :
    Part.Only [.parsers, .filters, .transit, .orphans, .reports, .mem, .port]
      ((p.forward w.addr.toNat w.data w.strobes).trampleSlots { source := w.source.val, block := w.addr.toNat })
      (p.takeWriteBlock w).1 := by
  have rest : Part.Only [.transit, .orphans, .reports, .mem, .port]
      ((p.forward w.addr.toNat w.data w.strobes).trampleSlots { source := w.source.val, block := w.addr.toNat })
      (p.forwardWrite w) := by
    unfold forwardWrite
    rw [trampleTest_eq]
    exact trampleRest_only _ _
  generalize (p.forward w.addr.toNat w.data w.strobes).trampleSlots
    { source := w.source.val, block := w.addr.toNat } = slots at rest ⊢
  rcases inside with memory | ⟨i, intake⟩
  · rw [takeWriteBlock_memory memory]
    exact rest.mono (by simp)
  · rw [takeWriteBlock_intake intake]
    unfold writeIntake
    have parsed := (p.forwardWrite w).parserBlock_only (p.windows[i].parserBlock w)
    generalize p.forwardWrite w = q at rest parsed ⊢
    generalize q.parserBlock (p.windows[i].parserBlock w) = r at parsed ⊢
    exact (rest.mono (by simp)).trans (parsed.mono (by simp))

end Part

theorem State.write_run {s : State} {w : WriteBlock} (up : s.resetn = true) (aligned : w.addr.toNat % 64 = 0) :
    exec (.upstreamWriteBlock w) s = .next (s.takeWrite w) := by
  rw [exec_upstreamWriteBlock, onBlock_aligned aligned, whenUp_up up]

end Sys2Proof.Machine
end

section
/-! SUPPORT. The hold policy of a plate whose slot is no longer whole (R117). -/

namespace Sys2Proof.Machine
namespace Part

section
variable {p : Part} {m : Fin 64} {f : Plate → Plate}

/-! ## Back to WAITING (R113, R117) -/

theorem backToWaiting_only (p : Part) (m : Fin 64) (f : Plate → Plate) :
    p.Only [.plates, .channels, .sets, .mem, .port] (p.backToWaiting m f) := by
  have left : p.Only [.plates, .channels, .sets, .mem, .port]
      ((p.changePlate m fun x => f { x with state := .waiting, forced := false }).leaveLists m) :=
    ((Only.refl _ p).changePlate).trans ((leaveLists_only _ m).mono (by simp))
  unfold backToWaiting
  dsimp only
  split
  · exact left.trans ((dropUse_only _ m).mono (by simp))
  · exact left

theorem backToWaiting_lists (p : Part) (m : Fin 64) (f : Plate → Plate) :
    (p.backToWaiting m f).plates = p.plates.set m (f { p.plates[m] with state := .waiting, forced := false })
      ∧ (p.backToWaiting m f).channels
        = ((p.changePlate m fun x => f { x with state := .waiting, forced := false }).leaveLists m).channels := by
  have changed : (p.changePlate m fun x => f { x with state := .waiting, forced := false }).plates
    = p.plates.set m (f { p.plates[m] with state := .waiting, forced := false }) := rfl
  have left := (p.changePlate m fun x => f { x with state := .waiting, forced := false }).leaveLists_only m
  unfold backToWaiting
  dsimp only
  generalize (p.changePlate m fun x => f { x with state := .waiting, forced := false }) = a at changed left ⊢
  have plates := (left .plates (by simp)).trans changed
  generalize a.leaveLists m = b at plates ⊢
  split
  · have dropped := b.dropUse_only m
    exact ⟨(dropped .plates (by simp)).trans plates, dropped .channels (by simp)⟩
  · exact ⟨plates, rfl⟩

/-- A plate that leaves its channel's lists stands on no READY list, where it stood on that channel's alone. -/
theorem leaveLists_absent {k : Fin 2} (own : p.plates[m].copy.channel = k)
    (others : ∀ j : Fin 2, j ≠ k → m ∉ p.channels[j].ready) (j : Fin 2) : m ∉ (p.leaveLists m).channels[j].ready := by
  subst own
  have left := p.leaveLists_channels m
  intro listed
  by_cases here : j = p.plates[m].copy.channel
  · subst here
    rw [Vector.get_of_eq_set left, (Channel.follow_lists _).1] at listed
    simpa using (List.mem_filter.mp listed).2
  · rw [left, Vector.set_other here] at listed
    exact others j here listed

theorem backToWaiting_absent {k : Fin 2}
    (own : (f { p.plates[m] with state := .waiting, forced := false }).copy.channel = k)
    (others : ∀ j : Fin 2, j ≠ k → m ∉ p.channels[j].ready) (j : Fin 2) :
    m ∉ (p.backToWaiting m f).channels[j].ready := by
  have changed : (p.changePlate m fun x => f { x with state := .waiting, forced := false }).plates
    = p.plates.set m (f { p.plates[m] with state := .waiting, forced := false }) := rfl
  rw [(p.backToWaiting_lists m f).2]
  have plate := Vector.get_of_eq_set changed
  generalize same : (p.changePlate m fun x => f { x with state := .waiting, forced := false }) = a at plate ⊢
  have channels : a.channels = p.channels := by rw [← same]; rfl
  exact leaveLists_absent (k := k) (by rw [plate]; exact own) (fun j other => by rw [channels]; exact others j other) j

/-- A plate with a placement pinned to a slot that is not whole is not ready to run (R110). -/
theorem readyToRun_broken {n : Fin 512} {i : Fin 4} (placed : i.val < p.plates[m].copy.placements.length)
    (slot : p.plates[m].res[i].slot = n) (broken : p.slots[n].whole = false) : p.readyToRun m = false := by
  subst slot
  have member : (i, p.plates[m].copy.placements[i.val]) ∈ p.plates[m].copy.numberedPlacements := by
    refine List.mem_iff_getElem.mpr ⟨i.val, ?_, ?_⟩
    · unfold PlateRecord.numberedPlacements
      rw [List.length_zip, List.length_finRange]
      exact lt_min i.isLt placed
    · simp [PlateRecord.numberedPlacements]
  refine List.all_eq_false.mpr ⟨_, member, ?_⟩
  rw [resolvedWhole, broken, Bool.and_false]
  exact Bool.false_ne_true

theorem enterWaiting_stays (unready : p.readyToRun m = false) (never : p.plates[m].deadlinePassed = false) :
    p.enterWaiting m = p := by
  unfold enterWaiting
  rw [if_neg (by rw [unready]; exact Bool.false_ne_true), if_neg (by rw [never]; exact Bool.false_ne_true)]

/-! ## The hold -/

/-- The plate as it is held (R117). -/
def heldPlate (x : Plate) : Plate :=
  { x with state := .waiting, forced := false, holds := satInc Config.max16 x.holds }

theorem holdPlate_waits {n : Fin 512} {i k : Fin 4} {ref : EntryRef}
    (never : p.plates[m].deadlinePassed = false) (placed : i.val < p.plates[m].copy.placements.length)
    (slot : p.plates[m].res[i].slot = n) (broken : p.slots[n].whole = false)
    (others : ∀ j : Fin 2, j ≠ p.plates[m].copy.channel → m ∉ p.channels[j].ready) :
    (p.holdPlate m k n ref).plates[m] = heldPlate p.plates[m]
      ∧ ∀ j : Fin 2, m ∉ (p.holdPlate m k n ref).channels[j].ready := by
  have lists := p.backToWaiting_lists m fun x => { x with holds := satInc Config.max16 x.holds }
  have only := p.backToWaiting_only m fun x => { x with holds := satInc Config.max16 x.holds }
  have absent := backToWaiting_absent (p := p) (m := m) (f := fun x => { x with holds := satInc Config.max16 x.holds })
    rfl others
  unfold holdPlate
  dsimp only
  generalize (p.backToWaiting m fun x => { x with holds := satInc Config.max16 x.holds }) = a at lists only absent ⊢
  have plate : a.plates[m] = heldPlate p.plates[m] := Vector.get_of_eq_set lists.1
  have slots : a.slots = p.slots := only .slots (by simp)
  have tells (x : Subject) : a.Only [.mem, .port, .reports] (a.raise .plateHeld x) := (Only.refl _ a).raise
  have unready (x : Subject) : (a.raise .plateHeld x).readyToRun m = false := by
    refine readyToRun_broken (i := i) (n := n) ?_ ?_ ?_
    · rw [raise_plates, plate]
      exact placed
    · rw [raise_plates, plate]
      exact slot
    · rw [raise_slots, slots]
      exact broken
  rw [enterWaiting_stays (unready _) (by rw [raise_plates, plate]; exact never), raise_plates, raise_channels]
  exact ⟨plate, absent⟩

/-- A plate that is listed, holds and was not forced, as its turn in the hold policy comes. -/
theorem holdOne_holds {n : Fin 512} {i : Fin 4} {ref : EntryRef} (listed : p.plates[m].listed = true)
    (hold : p.plates[m].copy.hold = .hold) (free : p.plates[m].forced = false)
    (pinned : p.plates[m].res[i].pinned = true) (slot : p.plates[m].res[i].slot = n) :
    ∃ k, holdOne n ref p m = p.holdPlate m k n ref := by
  have found : (p.plates[m].pinnedTo n).isSome = true := by
    unfold Plate.pinnedTo lowest
    rw [List.find?_isSome]
    exact ⟨i, List.mem_finRange i, by rw [pinned, slot]; simp⟩
  obtain ⟨k, some⟩ := Option.isSome_iff_exists.mp found
  refine ⟨k, ?_⟩
  unfold holdOne
  rw [some]
  dsimp only
  rw [listed, hold, free]
  rfl

theorem tellNotWhole_holds {n : Fin 512} {i : Fin 4} {ref : EntryRef} (listed : p.plates[m].listed = true)
    (hold : p.plates[m].copy.hold = .hold) (free : p.plates[m].forced = false)
    (never : p.plates[m].deadlinePassed = false) (placed : i.val < p.plates[m].copy.placements.length)
    (pinned : p.plates[m].res[i].pinned = true) (slot : p.plates[m].res[i].slot = n) (broken : p.slots[n].whole = false)
    (others : ∀ j : Fin 2, j ≠ p.plates[m].copy.channel → m ∉ p.channels[j].ready) :
    (p.tellNotWhole n ref).plates[m] = heldPlate p.plates[m] := by
  obtain ⟨before, after, notBefore, notAfter, around⟩ := forEach_around (holdOne n ref) p m
  have spare {l : List (Fin 64)} (out : m ∉ l) (a : Part) : a.Spares (· = m) (l.foldl (holdOne n ref) a) :=
    foldl_keeps_of_mem (kept := a.Spares (· = m)) (fun b j member h =>
      h.trans ((holdOne_acts n ref b j).spares fun same => out (same ▸ member))) (Spares.refl a _)
  have first := spare notBefore p
  rw [tellNotWhole_eq, around]
  generalize before.foldl (holdOne n ref) p = a at first ⊢
  have same := first.plates m rfl
  rw [← same] at listed hold free never placed pinned slot others
  obtain ⟨k, held⟩ := holdOne_holds (ref := ref) listed hold free pinned slot
  obtain ⟨waits, absent⟩ := holdPlate_waits (k := k) (ref := ref) never placed slot
    ((first.slots n).whole broken) fun j other ready => others j other (first.ready m rfl j ready)
  rw [held]
  generalize a.holdPlate m k n ref = b at waits absent ⊢
  have last := spare notAfter b
  have still : Spares.absent (· = m) b := fun j own k => by rw [own]; exact absent k
  have fed := Spares.feedAll (last.still still)
  rw [(last.trans fed).plates m rfl, waits, same]

end
end Part
end Sys2Proof.Machine
end

section
/-! SUPPORT. A write that meets the extent of a GOOD band (R149, R150, R117). -/

namespace Sys2Proof.Machine

/-- A band that the block meets is GOOD, in use, and its extent holds a byte of the block (R149). -/
theorem meetsBand_of_mem {x : Slot} {b : Fin 64} {block : Nat} (member : .band b ∈ x.metEntries block) :
    x.meetsBand b block := by
  unfold Slot.metEntries at member
  split at member
  · rename_i inUse
    rcases List.mem_append.mp member with band | tone
    · obtain ⟨⟨i, e⟩, met, same⟩ := List.mem_map.mp band
      obtain ⟨taken, hit⟩ := List.mem_filter.mp met
      obtain rfl : i = b := EntryRef.band.inj same
      have entry : e = x.bands[i] := numbered_get x.bands (List.mem_of_mem_take taken)
      obtain ⟨j, inside, here⟩ := List.mem_take_iff_getElem.mp taken
      have index : j = i.val := by
        have first := congrArg (fun y : Fin 64 × Entry => y.1.val) here
        simpa [numbered_eq] using first
      rw [entry, Bool.and_eq_true, beq_iff_eq] at hit
      exact ⟨inUse, index ▸ lt_of_lt_of_le inside (min_le_left _ _), hit.1, hit.2⟩
    · obtain ⟨y, -, same⟩ := List.mem_map.mp tone
      exact nomatch same
  · exact absurd member List.not_mem_nil

namespace Part

section
variable {p : Part} {n : Fin 512} {b : Fin 64} {t : Trample}

/-- The block meets one band and nothing else: that entry alone leaves GOOD. -/
theorem trampleSlots_one (met : p.slots[n].metEntries t.block = [.band b])
    (others : ∀ j : Fin 512, j ≠ n → p.slots[j].metEntries t.block = []) :
    p.trampleSlots t = p.trampleEntry n t (.band b) := by
  have one : (p.slotsWhere fun s => !(s.metEntries t.block).isEmpty) = [n] := by
    rw [slotsWhere_eq]
    have only : ∀ j ∈ List.finRange 512, (!(p.slots[j].metEntries t.block).isEmpty) = (j == n) := by
      intro j _
      by_cases same : j = n
      · subst same
        rw [met, beq_self_eq_true]
        rfl
      · rw [others j same, beq_eq_false_iff_ne.mpr same]
        rfl
    rw [List.filter_congr only, List.filter_beq,
        List.count_eq_one_of_mem (List.nodup_finRange 512) (List.mem_finRange n)]
    rfl
  have turn : trampleTurn t n p (.band b) = p.trampleEntry n t (.band b) := by
    unfold trampleTurn
    rw [met]
    exact if_pos (by simp)
  rw [trampleSlots, one, List.foldl_cons, List.foldl_nil, trampleSlot_eq, met, List.foldl_cons, List.foldl_nil, turn]

/-- A plate that holds, its slot trampled while it was whole (R117). -/
theorem trampleEntry_holds {m : Fin 64} {i : Fin 4} (band : p.slots[n].meetsBand b t.block) (good : p.slots[n].allGood)
    (state : p.plates[m].state = .ready ∨ p.plates[m].state = .queued) (hold : p.plates[m].copy.hold = .hold)
    (free : p.plates[m].forced = false) (never : p.plates[m].deadlinePassed = false)
    (placed : i.val < p.plates[m].copy.placements.length) (pinned : p.plates[m].res[i].pinned = true)
    (slot : p.plates[m].res[i].slot = n)
    (others : ∀ j : Fin 2, j ≠ p.plates[m].copy.channel → m ∉ p.channels[j].ready) :
    (p.trampleEntry n t (.band b)).plates[m] = heldPlate p.plates[m] := by
  obtain ⟨inUse, inside, -, -⟩ := band
  have listed : p.plates[m].listed = true := by
    rcases state with h | h <;> rw [Plate.listed, h] <;> rfl
  have whole : p.slots[n].whole = true := Slot.whole_of_good inUse good.1 good.2
  obtain ⟨-, bands, -, geom, -, plates, ready⟩ :=
    p.leftGood_loses n (.band b) .trampled (.trample t) (trampleDamage t)
  have acts := p.leaveGood_eq n (.band b) .trampled (.trample t) (trampleDamage t)
  rw [show p.trampleEntry n t (.band b) = p.leaveGood n (.band b) .trampled (.trample t) (trampleDamage t) from rfl,
    acts, if_pos whole]
  generalize p.leftGood n (.band b) .trampled (.trample t) (trampleDamage t) = q at bands geom plates ready ⊢
  have broken : q.slots[n].whole = false := by
    refine Slot.whole_of_band (i := b) (by rw [geom]; exact inside) ?_
    rw [(trampled_band bands).1 rfl]
    decide
  rw [← plates] at listed hold free never placed pinned slot others ⊢
  exact tellNotWhole_holds listed hold free never placed pinned slot broken fun j other => by
    rw [ready]
    exact others j other

end
end Part

/-- Settles O32. -/
theorem trampledBandIsNotGood : Obligations.TrampledBandIsNotGood := by
  refine ⟨fun w s n b up aligned inside inUse used good meets => ?tramples,
    fun w s n b m i up aligned inside inUse good met others listed hold free never placed pinned slot ready => ?holds⟩
  case tramples =>
    have work := Part.takeWriteBlock_open inside
    have part : (s.takeWrite w).part = (s.part.takeWriteBlock w).1 := (takeWrite_frame rfl).1
    have slots : (s.part.forward w.addr.toNat w.data w.strobes).slots = s.part.slots := rfl
    generalize s.part.forward w.addr.toNat w.data w.strobes = a at work slots
    have spoils := Part.trampleSlots_spoils (p := a) (t := { source := w.source.val, block := w.addr.toNat }) (n := n)
      (b := b) (by rw [slots]; exact ⟨inUse, used, good, meets⟩)
    rw [← work .slots (by simp), ← part] at spoils
    obtain ⟨bad, trampled⟩ := spoils
    exact ⟨_, State.write_run up aligned, bad, trampled⟩
  case holds =>
    have work := Part.takeWriteBlock_open inside
    have part : (s.takeWrite w).part = (s.part.takeWriteBlock w).1 := (takeWrite_frame rfl).1
    have slots : (s.part.forward w.addr.toNat w.data w.strobes).slots = s.part.slots := rfl
    have plates : (s.part.forward w.addr.toNat w.data w.strobes).plates = s.part.plates := rfl
    have channels : (s.part.forward w.addr.toNat w.data w.strobes).channels = s.part.channels := rfl
    generalize s.part.forward w.addr.toNat w.data w.strobes = a at work slots plates channels
    have band : s.part.slots[n].meetsBand b w.addr.toNat := meetsBand_of_mem (met ▸ List.mem_singleton_self _)
    rw [← plates, ← channels] at ready
    rw [← plates] at listed hold free never placed pinned slot ⊢
    rw [← slots] at band good met others
    have held := Part.trampleEntry_holds (t := { source := w.source.val, block := w.addr.toNat }) band good listed hold
      free never placed pinned slot ready
    rw [← Part.trampleSlots_one (t := { source := w.source.val, block := w.addr.toNat }) met others,
      ← work .plates (by simp), ← part] at held
    exact ⟨_, State.write_run up aligned, held.trans (congrArg (fun forced => { a.plates[m] with
      state := .waiting, holds := satInc 65535 a.plates[m].holds, forced := forced }) free.symm)⟩

end Sys2Proof.Machine
end

section
/-! SUPPORT. A HEAD that supersedes the current slot of its identity (R29, R30). -/

namespace Sys2Proof.Machine
namespace Part

section
variable {p : Part} {c : Parcel} {n m : Fin 512}

/-- A slot freed while no orphan waits (R39). -/
theorem freeSlot_noOrphans (empty : p.orphans = []) :
    p.freeSlot m = (p.changeSlot m Slot.freed).raise .pageRetired
      (.page { p.slots[m].form m with cause := p.slots[m].state.code }) := by
  unfold freeSlot
  dsimp only
  rw [dropOrphans_none empty]

/-- The old current slot as the new one supersedes it (R30). -/
def supersededSlot (x : Slot) : Slot := { x with state := .superseded, deadline := none, change := x.change + 1 }

theorem marksSuperseded_slots (p : Part) (m n : Fin 512) :
    (p.marksSuperseded m n).slots = p.slots.set m (supersededSlot p.slots[m]) :=
  (raise_slots _ _ _).trans (changeSlot_slots _ _ _)

theorem marksSuperseded_only (p : Part) (m n : Fin 512) :
    p.Only [.slots, .reports, .mem, .port] (p.marksSuperseded m n) := ((Only.refl _ p).changeSlot).raise

theorem marksSuperseded_touches (p : Part) (m n : Fin 512) :
    p.Touches [mirrorRange n, mirrorRange m, reportRing, headerRange] (p.marksSuperseded m n) :=
  ((Touches.refl _ p).changeSlot (by simp)).raise_ring (by simp) (by simp)

theorem supersede_pinned (pinned : p.slots[m].pins ≠ 0) : p.supersede m n = p.marksSuperseded m n := by
  have slots := p.marksSuperseded_slots m n
  rw [supersede_eq]
  generalize p.marksSuperseded m n = a at slots
  exact if_neg (by rw [Vector.get_of_eq_set slots]; exact pinned)

theorem supersede_free (free : p.slots[m].pins = 0) : p.supersede m n = (p.marksSuperseded m n).freeSlot m := by
  have slots := p.marksSuperseded_slots m n
  rw [supersede_eq]
  generalize p.marksSuperseded m n = a at slots
  exact if_pos (by rw [Vector.get_of_eq_set slots]; exact free)

/-- What the supersession of slot `m` writes (R30, R39). -/
structure Supersedes (p : Part) (n m : Fin 512) (q : Part) : Prop where
  others : ∀ j : Fin 512, j ≠ m → q.slots[j] = p.slots[j]
  pinned : p.slots[m].pins ≠ 0 → q.slots[m] = supersededSlot p.slots[m]
  freed : p.slots[m].pins = 0 → q.slots[m] = { alloc := p.slots[m].alloc, change := p.slots[m].change + 1 + 1 }
  only : p.Only [.slots, .reports, .mem, .port] q
  touches : p.Touches [mirrorRange n, mirrorRange m, reportRing, headerRange] q

theorem supersede_spec (empty : p.orphans = []) : p.Supersedes n m (p.supersede m n) := by
  have slots := p.marksSuperseded_slots m n
  have only := p.marksSuperseded_only m n
  have touches := p.marksSuperseded_touches m n
  by_cases free : p.slots[m].pins = 0
  · rw [supersede_free free]
    generalize p.marksSuperseded m n = a at slots only touches
    have own := Vector.get_of_eq_set slots
    have freed := a.freeSlot_slots m
    have none : a.orphans = [] := (only .orphans (by simp)).trans empty
    have retired : a.Only [.slots, .reports, .mem, .port] (a.freeSlot m) := by
      rw [freeSlot_noOrphans none]
      exact ((Only.refl _ a).changeSlot).raise
    have left := touches.freeSlot (by simp) (by simp) (n := m) (by simp)
    generalize a.freeSlot m = q at freed retired left
    refine ⟨fun j other => ?_, fun pinned => absurd free pinned, fun _ => ?_, only.trans retired, left⟩
    · rw [freed, Vector.set_other other, slots]
      exact Vector.set_other other
    · rw [Vector.get_of_eq_set freed, own]
      rfl
  · rw [supersede_pinned free]
    refine ⟨fun j other => ?_, fun _ => Vector.get_of_eq_set slots, fun h => absurd h free, only, touches⟩
    rw [slots]
    exact Vector.set_other other

/-- The slot a HEAD has opened (R29). -/
def newSlot (p : Part) (c : Parcel) (n : Fin 512) : Slot :=
  { state := .filling, id := c.header.id, version := c.header.version
    alloc := p.slots[n].alloc + 1, change := p.slots[n].change + 1, filterHit := c.hit
    geom := headGeometry c.header c.capture
    deadline := some (p.tick + BitVec.ofNat 32 p.params.gapMs) }

/-- What a HEAD that supersedes slot `m` writes before plate control is told (R29, R30). -/
structure OpensOver (p : Part) (c : Parcel) (n m : Fin 512) (q : Part) : Prop where
  opened : q.slots[n] = p.newSlot c n
  others : ∀ j : Fin 512, j ≠ n → j ≠ m → q.slots[j] = p.slots[j]
  pinned : p.slots[m].pins ≠ 0 → q.slots[m] = supersededSlot p.slots[m]
  freed : p.slots[m].pins = 0 → q.slots[m] = { alloc := p.slots[m].alloc, change := p.slots[m].change + 1 + 1 }
  only : p.Only [.slots, .reports, .mem, .port] q
  touches : p.Touches [mirrorRange n, mirrorRange m, reportRing, headerRange] q

theorem opensOver (empty : p.orphans = []) (apart : n ≠ m) :
    p.OpensOver c n m ((p.pageOpened c n).supersede m n) := by
  have slots := p.pageOpened_slots c n
  have only := p.pageOpened_only c n
  have touches : p.Touches [mirrorRange n, mirrorRange m, reportRing, headerRange] (p.pageOpened c n) :=
    ((Touches.refl _ p).changeSlot (by simp)).raise_ring (by simp) (by simp)
  generalize p.pageOpened c n = a at slots only touches
  have old : a.slots[m] = p.slots[m] := by rw [slots]; exact Vector.set_other apart.symm
  obtain ⟨others, pinned, freed, only', touches'⟩ :=
    supersede_spec (p := a) (n := n) (m := m) ((only .orphans (by simp)).trans empty)
  rw [old] at pinned freed
  refine ⟨?_, fun j first second => ?_, pinned, freed, only.trans only', touches.trans touches'⟩
  · rw [others n apart]
    exact Vector.get_of_eq_set slots
  · rw [others j second, slots]
    exact Vector.set_other first

end

/-- The slots before a HEAD that supersedes one of them. -/
theorem fileHead_supersedes {p : Part} {c : Parcel} {n m : Fin 512} (valid : c.validHead)
    (newer : p.newerThanAll c.header.id c.header.version) (current : p.slots[m].current = true)
    (named : p.slots[m].id = c.header.id)
    (alone : ∀ j : Fin 512, p.slots[j].current = true → p.slots[j].id = c.header.id → j = m)
    (free : p.slots[n].state = .free) (below : ∀ j : Fin 512, j < n → p.slots[j].state ≠ .free)
      (empty : p.orphans = []) :
    p.fileHead c = ((p.pageOpened c n).supersede m n).tellCurrent n := by
  have found : p.currentSlot c.header.id = some m :=
    (if_pos rfl).symm.trans (lookFor_current current named fun j hit same => alone j hit (same.trans named))
  rw [fileHead_opens valid newer free below, openPage_noOrphans empty, found]
  rfl

end Part
end Sys2Proof.Machine
end

section
/-! SUPPORT. A new current slot and the one plate that follows its identity (R118, R119). -/

namespace Sys2Proof.Machine

section
variable {r : PlateRecord} {x : Placement}

theorem PlateRecord.numberedPlacements_single (single : r.placements = [x]) : r.numberedPlacements = [(0, x)] := by
  unfold numberedPlacements
  rw [single, show List.finRange 4 = [0, 1, 2, 3] from rfl]
  rfl

/-- The one placement of a plate follows the newest version of its identity (R118). -/
theorem PlateRecord.followers_single (single : r.placements = [x]) (any : x.version = 0) :
    r.followers (r.identity x) = [(0, x)] := by
  unfold followers
  rw [numberedPlacements_single single]
  simp [any]

end

namespace Part

section
variable {p q : Part} {i : Fin 64} {n : Fin 512} {taken : List (Fin 64 × Fin 4)} {x : Placement}

/-- Of one armed plate a new current slot is told, where R108 does nothing more for it. -/
theorem tellCurrent_one (idle : ∀ j : Fin 64, j ≠ i → p.plates[j].state.armed = false)
    (follows : followNewest (p, []) i n = (q, taken)) (plates : ∀ j : Fin 64, j ≠ i → q.plates[j] = p.plates[j])
    (resolved : q.resolveWaiting i taken n = q) : p.tellCurrent n = q.feedAll := by
  have unarmed (j : Fin 64) (other : j ≠ i) : q.plates[j].state.armed = false := by
    rw [plates j other]
    exact idle j other
  have first : forEach 64 (fun x j => followNewest x j n) (p, []) = (q, taken) := by
    rw [forEach_once i (fun j below => followNewest_idle (idle j (ne_of_lt below)))
      (fun j above => by rw [follows]; exact followNewest_idle (unarmed j (ne_of_gt above))), follows]
  have second : forEach 64 (fun (p : Part) j => p.resolveWaiting j taken n) q = q := by
    refine forEach_fixed fun j => ?_
    by_cases own : j = i
    · rw [own]
      exact resolved
    · exact resolveWaiting_idle (unarmed j own)
  unfold tellCurrent
  dsimp only
  rw [first]
  dsimp only
  rw [second]

/-! ## An EXPOSING plate (R119) -/

/-- REMAKE_AFTER_START for placement 0 of a plate (R119, R207). -/
def remakeSubject (p : Part) (i : Fin 64) (n : Fin 512) : Subject :=
  .plate { p.plateForm i with
    placement := 0
    tail := leBytes 2 p.slots[n].id.edition ++ leBytes 1 p.slots[n].id.zone ++ leBytes 1 p.slots[n].id.sep
      ++ leBytes 2 p.slots[n].id.page
      ++ leBytes 2 (if p.plates[i].res[(0 : Fin 4)].pinned then p.plates[i].res[(0 : Fin 4)].version else 0)
      ++ leBytes 2 p.slots[n].version }

theorem followNewest_exposing (exposing : p.plates[i].state = .exposing) (single : p.plates[i].copy.placements = [x])
    (any : x.version = 0) (named : p.plates[i].copy.identity x = p.slots[n].id) :
    followNewest (p, []) i n = (p.raise .remakeAfterStart (p.remakeSubject i n), []) := by
  have followers := PlateRecord.followers_single single any
  rw [named] at followers
  unfold followNewest
  dsimp only
  rw [if_pos exposing, followers]
  rfl

theorem tellCurrent_exposing (idle : ∀ j : Fin 64, j ≠ i → p.plates[j].state.armed = false)
    (empty : ∀ k : Fin 2, p.channels[k].ready = []) (exposing : p.plates[i].state = .exposing)
    (single : p.plates[i].copy.placements = [x]) (any : x.version = 0)
    (named : p.plates[i].copy.identity x = p.slots[n].id) :
    p.tellCurrent n = p.raise .remakeAfterStart (p.remakeSubject i n) := by
  have follows := followNewest_exposing exposing single any named
  have plates : (p.raise .remakeAfterStart (p.remakeSubject i n)).plates = p.plates := raise_plates _ _ _
  have channels : (p.raise .remakeAfterStart (p.remakeSubject i n)).channels = p.channels := raise_channels _ _ _
  generalize p.raise .remakeAfterStart (p.remakeSubject i n) = q at follows plates channels ⊢
  have resolved : q.resolveWaiting i [] n = q := by
    have closed : q.plates[i].open_ = false := by
      rw [plates, Plate.open_, Plate.listed, exposing]
      rfl
    rw [resolveWaiting, closed, if_neg Bool.false_ne_true]
  rw [tellCurrent_one idle follows (fun j _ => by rw [plates]) resolved,
    feedAll_empty fun k => by rw [channels]; exact empty k]

/-! ## A WAITING or QUEUED plate (R118) -/

/-- The plate with its follower pinned to the new slot (R118, steps 1 to 3). -/
def repinnedPlate (p : Part) (x : Plate) (n : Fin 512) : Plate :=
  { x.setRes 0 (p.resolvedTo n) with repins := satInc Config.max16 x.repins }

theorem followNewest_open (open_ : p.plates[i].open_ = true) (single : p.plates[i].copy.placements = [x])
    (any : x.version = 0) (named : p.plates[i].copy.identity x = p.slots[n].id)
    (pinned : p.plates[i].res[(0 : Fin 4)].pinned = true) :
    followNewest (p, []) i n = (p.repinPlate i [(0, x)] n, [(i, 0)]) := by
  have followers := PlateRecord.followers_single single any
  have calm : p.plates[i].state ≠ .exposing := fun h => by
    rw [Plate.open_, Plate.listed, h] at open_
    exact nomatch open_
  have filtered : ([((0 : Fin 4), x)].filter fun q => p.plates[i].res[q.1].pinned) = [(0, x)] := by
    rw [List.filter_cons, pinned]
    rfl
  rw [named] at followers
  unfold followNewest
  dsimp only
  rw [if_neg calm, followers, filtered, open_]
  rfl

end
end Part
end Sys2Proof.Machine
end

section
/-! SUPPORT. A WAITING or QUEUED plate that follows the newest version (R118). -/

namespace Sys2Proof.Machine
namespace Part

section
variable {p : Part} {i : Fin 64} {n m : Fin 512} {x : Placement}

theorem resolveNow_fits (width : p.slots[n].geom.width = x.frameW) (height : p.slots[n].geom.height = x.frameH) :
    p.resolveNow i 0 x n
      = (((p.changePlate i fun y => y.setRes 0 (p.resolvedTo n)).takePin n).plateStatus i) := by
  rw [resolveNow, resolveTo_fits width height]

/-- The placement resolved to the new slot. -/
theorem resolveNow_spec (width : p.slots[n].geom.width = x.frameW) (height : p.slots[n].geom.height = x.frameH) :
    (p.resolveNow i 0 x n).plates = p.plates.set i (p.plates[i].setRes 0 (p.resolvedTo n))
      ∧ (p.resolveNow i 0 x n).slots = p.slots.set n
        { p.slots[n] with pins := p.slots[n].pins + 1, change := p.slots[n].change + 1 }
      ∧ p.Only [.plates, .slots, .mem, .port] (p.resolveNow i 0 x n) := by
  have plates : (p.changePlate i fun y => y.setRes 0 (p.resolvedTo n)).plates
    = p.plates.set i (p.plates[i].setRes 0 (p.resolvedTo n)) := rfl
  have slots : (p.changePlate i fun y => y.setRes 0 (p.resolvedTo n)).slots = p.slots := rfl
  have only : p.Only [.plates] (p.changePlate i fun y => y.setRes 0 (p.resolvedTo n)) := (Only.refl _ p).changePlate
  rw [resolveNow_fits width height]
  generalize (p.changePlate i fun y => y.setRes 0 (p.resolvedTo n)) = a at plates slots only
  refine ⟨(plateStatus_plates _ _).trans ((takePin_plates _ _).trans plates), (plateStatus_slots _ _).trans ?_,
    ((only.mono (by simp)).trans ((a.takePin_only n).mono (by simp))).plateStatus⟩
  rw [takePin_slots, slots]

/-- What a repin of placement 0 from slot `m` to slot `n` writes (R118, steps 1 to 3). -/
structure Repins (p : Part) (i : Fin 64) (n m : Fin 512) (y : Plate) (q : Part) : Prop where
  plates : q.plates = p.plates.set i y
  taken : q.slots[n] = { p.slots[n] with pins := p.slots[n].pins + 1, change := p.slots[n].change + 1 }
  released : pinReleased p.slots[m] q.slots[m]
  ready : ∀ k : Fin 2, q.channels[k].ready = []

theorem repin_repins (width : p.slots[n].geom.width = x.frameW) (height : p.slots[n].geom.height = x.frameH)
    (old : p.plates[i].res[(0 : Fin 4)].slot = m) (apart : n ≠ m) (ready : ∀ k : Fin 2, p.channels[k].ready = []) :
    p.Repins i n m (p.repinnedPlate p.plates[i] n) (p.repin i 0 x n) := by
  obtain ⟨plates, slots, only⟩ := resolveNow_spec (i := i) width height
  subst old
  unfold repin
  dsimp only
  generalize p.resolveNow i 0 x n = a at plates slots only
  have released := a.releasePin_get p.plates[i].res[(0 : Fin 4)].slot
  have kept := a.releasePin_get_ne apart
  have same := a.releasePin_plates p.plates[i].res[(0 : Fin 4)].slot
  have work : a.Only [.mem, .port, .reports, .orphans, .slots] (a.releasePin p.plates[i].res[(0 : Fin 4)].slot) :=
    (Only.refl _ a).releasePin
  generalize a.releasePin p.plates[i].res[(0 : Fin 4)].slot = b at released kept same work
  have channels : b.channels = p.channels := (work .channels (by simp)).trans (only .channels (by simp))
  have counted := changePlate_set (same.trans plates) fun y => { y with repins := satInc Config.max16 y.repins }
  have slots' : (b.changePlate i fun y => { y with repins := satInc Config.max16 y.repins }).slots = b.slots := rfl
  have channels' : (b.changePlate i fun y => { y with repins := satInc Config.max16 y.repins }).channels
      = b.channels := rfl
  generalize (b.changePlate i fun y => { y with repins := satInc Config.max16 y.repins })
      = d at counted slots' channels'
  refine ⟨(plateStatus_plates _ _).trans counted, ?_, ?_, fun k => ?_⟩
  · rw [plateStatus_slots, slots', kept, Vector.get_of_eq_set slots]
  · rw [plateStatus_slots, slots']
    rw [slots, Vector.set_other apart.symm] at released
    exact released
  · rw [plateStatus_channels, channels', channels]
    exact ready k

theorem Repins.same {q r : Part} {y : Plate} (h : p.Repins i n m y q) (plates : r.plates = q.plates)
    (slots : r.slots = q.slots) (channels : r.channels = q.channels) : p.Repins i n m y r :=
  ⟨plates.trans h.plates, by rw [slots]; exact h.taken, by rw [slots]; exact h.released,
    fun k => by rw [channels]; exact h.ready k⟩

/-- A QUEUED plate that was repinned goes back to WAITING (R118). -/
theorem Repins.back {q : Part} {y : Plate} (h : p.Repins i n m y q) :
    p.Repins i n m { y with state := .waiting, forced := false } (q.backToWaiting i id) := by
  obtain ⟨plates, taken, released, ready⟩ := h
  obtain ⟨moved, lists⟩ := q.backToWaiting_lists i id
  have only := q.backToWaiting_only i id
  have slots : (q.backToWaiting i id).slots = q.slots := only .slots (by simp)
  refine ⟨?_, by rw [slots]; exact taken, by rw [slots]; exact released, fun k => ?_⟩
  · rw [moved, Vector.get_of_eq_set plates, plates, Vector.set_set]
    rfl
  · rw [lists]
    exact leaveLists_empty (p := q.changePlate i fun x => id { x with state := .waiting, forced := false }) i ready k

/-- The plate after it has followed the newest version (R118). -/
def followedPlate (p : Part) (y : Plate) (n : Fin 512) : Plate :=
  { p.repinnedPlate y n with state := .waiting, forced := if y.state = .queued then false else y.forced }

/-- A plate with its one placement pinned to a slot that is not whole waits (R110). -/
theorem enterWaiting_pinned {q : Part} {y : Plate} (plate : q.plates[i] = y) (single : y.copy.placements = [x])
    (slot : y.res[(0 : Fin 4)].slot = n) (broken : q.slots[n].whole = false) (never : y.deadlinePassed = false) :
    q.readyToRun i = false ∧ q.enterWaiting i = q := by
  subst plate
  have unready := readyToRun_broken (i := 0) (by rw [single]; exact Nat.zero_lt_one) slot broken
  exact ⟨unready, enterWaiting_stays unready never⟩

theorem repinnedPlate_slot (p : Part) (y : Plate) (n : Fin 512) :
    (p.repinnedPlate y n).res[(0 : Fin 4)] = p.resolvedTo n := Vector.set_same

section
variable (state : p.plates[i].state = .waiting ∨ p.plates[i].state = .queued)
  (never : p.plates[i].deadlinePassed = false) (single : p.plates[i].copy.placements = [x])
  (width : p.slots[n].geom.width = x.frameW) (height : p.slots[n].geom.height = x.frameH)
  (old : p.plates[i].res[(0 : Fin 4)].slot = m) (apart : n ≠ m) (ready : ∀ k : Fin 2, p.channels[k].ready = [])
  (broken : p.slots[n].whole = false)
include state never single width height old apart ready broken

theorem repinPlate_follows :
    p.Repins i n m (p.followedPlate p.plates[i] n) (p.repinPlate i [(0, x)] n) := by
  have repins := repin_repins (i := i) width height old apart ready
  unfold repinPlate
  dsimp only
  rw [List.foldl_cons, List.foldl_nil]
  generalize p.repin i 0 x n = a at repins
  have told (y : Subject) : p.Repins i n m (p.repinnedPlate p.plates[i] n) (a.raise .plateRepinned y) :=
    repins.same (raise_plates _ _ _) (raise_slots _ _ _) (raise_channels _ _ _)
  rcases state with waiting | queued
  · have open_ : p.plates[i].listed = false := by rw [Plate.listed, waiting]; rfl
    rw [open_, if_neg Bool.false_ne_true]
    have same : p.followedPlate p.plates[i] n = p.repinnedPlate p.plates[i] n := by
      unfold followedPlate
      rw [waiting, if_neg (by decide), ← waiting]
      rfl
    rw [same]
    exact told _
  · have listed : p.plates[i].listed = true := by rw [Plate.listed, queued]; rfl
    rw [listed, if_pos rfl]
    have same : p.followedPlate p.plates[i] n
        = { p.repinnedPlate p.plates[i] n with state := .waiting, forced := false } := by
      unfold followedPlate
      rw [if_pos queued]
    rw [same]
    have back (y : Subject) := (told y).back
    have stays (y : Subject) : ((a.raise .plateRepinned y).backToWaiting i id).enterWaiting i
        = (a.raise .plateRepinned y).backToWaiting i id := by
      have spec := back y
      generalize (a.raise .plateRepinned y).backToWaiting i id = b at spec ⊢
      refine (enterWaiting_pinned (x := x) (n := n) (Vector.get_of_eq_set spec.plates) single ?_ ?_ never).2
      · exact congrArg Resolution.slot (p.repinnedPlate_slot p.plates[i] n)
      · rw [spec.taken]
        exact broken
    rw [stays]
    exact back _

theorem tellCurrent_follows (idle : ∀ j : Fin 64, j ≠ i → p.plates[j].state.armed = false) (any : x.version = 0)
    (named : p.plates[i].copy.identity x = p.slots[n].id) (pinned : p.plates[i].res[(0 : Fin 4)].pinned = true) :
    p.Repins i n m (p.followedPlate p.plates[i] n) (p.tellCurrent n) := by
  have open_ : p.plates[i].open_ = true := by
    rcases state with h | h <;> rw [Plate.open_, Plate.listed, h] <;> rfl
  have follows := followNewest_open open_ single any named pinned
  have repins := repinPlate_follows state never single width height old apart ready broken
  generalize p.repinPlate i [(0, x)] n = q at follows repins
  have plate := Vector.get_of_eq_set repins.plates
  have res : (p.followedPlate p.plates[i] n).res[(0 : Fin 4)] = p.resolvedTo n := p.repinnedPlate_slot _ n
  have unready := (enterWaiting_pinned (n := n) plate single (congrArg Resolution.slot res)
    (by rw [repins.taken]; exact broken) never).1
  have resolved : q.resolveWaiting i [(i, 0)] n = q := by
    have none : (q.plates[i].copy.numberedPlacements.filter (q.affected i [(i, 0)] n)) = [] := by
      have one : q.plates[i].copy.numberedPlacements = [(0, x)] := by
        rw [plate]
        exact PlateRecord.numberedPlacements_single single
      have out : q.affected i [(i, 0)] n (0, x) = false := by
        rw [affected, plate, res, resolvedTo]
        rfl
      rw [one, List.filter_cons, out]
      rfl
    unfold resolveWaiting
    rw [none, List.foldl_nil]
    dsimp only
    rw [unready, if_neg (c := q.plates[i].state = .waiting ∧ false = true) fun h => Bool.false_ne_true h.2, ite_self]
  rw [tellCurrent_one idle follows (fun j other => by rw [repins.plates]; exact Vector.set_other other) resolved,
    feedAll_empty repins.ready]
  exact repins

end

end
end Part
end Sys2Proof.Machine
end

section
/-! SUPPORT. A valid HEAD supersedes the current slot of its identity (R29, R30, R118, R119). -/

namespace Sys2Proof.Machine

/-- The page geometry of a valid HEAD has a band (R28). -/
theorem Parcel.validHead.someBand {c : Parcel} (valid : c.validHead) : 0 < c.header.bandCount := by
  obtain ⟨-, -, -, -, -, tall, -, band, -, count, -, -⟩ := valid
  rw [count, ceilDiv]
  exact Nat.div_pos (by omega) band

namespace Part

/-- A slot that a valid HEAD has opened is not whole (R35). -/
theorem newSlot_broken {p : Part} {c : Parcel} {n : Fin 512} (valid : c.validHead) : (p.newSlot c n).whole = false := by
  refine Slot.whole_of_band (i := 0) valid.someBand ?_
  have empty : (p.newSlot c n).bands[(0 : Fin 64)] = {} := by
    rw [newSlot, Fin.getElem_fin, Vector.getElem_replicate]
  rw [empty]
  decide

/-- The parcel has left the transit. -/
def filedFrom (p : Part) (before after : List Parcel) : Part := p.setTransit (before ++ after)

/-- No class is suppressed (R193). -/
theorem suppressed_none {x : Params} (none : x.suppress = 0) (k : ReportClass) : x.suppressed k = false := by
  cases k <;> simp [Params.suppressed, none]

/-- Reports are written, and the ring has room for one more (R189, R191). -/
structure Writes (p : Part) (room : Nat) : Prop where
  passes : p.params.suppress = 0
  up : p.sweep = .none
  unread : p.reports.unread + room ≤ 512

theorem writing_unread {x : ReportUnit} {room : Nat} (h : x.unread + (room + 1) ≤ 512) :
    x.writing.unread + room ≤ 512 := by
  have next : x.writing.unread = x.unread + 1 := by
    unfold ReportUnit.unread ReportUnit.writing at *
    bv_omega
  omega

/-- A report raised while there is room is written (R189). -/
theorem Writes.raised {p q : Part} {room : Nat} (h : p.Writes (room + 1)) (quiet : p.Quiet q) (kind : ReportKind)
    (x : Subject) : (q.raise kind x).reports = p.reports.writing ∧ (q.raise kind x).Writes room := by
  have reports : (q.raise kind x).reports = p.reports.writing := by
    rw [quiet.raise_reports, after_written (suppressed_none h.passes _) h.up (by have := h.unread; omega)]
  refine ⟨reports, by rw [raise_params, quiet.params]; exact h.passes, by rw [raise_sweep, quiet.sweep]; exact h.up, ?_⟩
  rw [reports]
  exact writing_unread h.unread

/-- The two reports of a HEAD that supersedes a pinned slot are written (R29, R30). -/
theorem supersede_reports {p : Part} {c : Parcel} {n m : Fin 512} {room : Nat} (h : p.Writes (room + 2))
    (apart : n ≠ m) (pinned : p.slots[m].pins ≠ 0) :
    ((p.pageOpened c n).supersede m n).reports = p.reports.writing.writing
      ∧ ((p.pageOpened c n).supersede m n).Writes room := by
  have slots := p.pageOpened_slots c n
  obtain ⟨first, left⟩ := h.raised (p.setUpSlot_only c n).quiet .pageOpened (openedSubject c n)
  rw [show (p.setUpSlot c n).raise .pageOpened (openedSubject c n) = p.pageOpened c n from rfl] at first left
  generalize p.pageOpened c n = a at slots first left
  have old : a.slots[m].pins ≠ 0 := by
    rw [slots, Vector.set_other apart.symm]
    exact pinned
  have marked : a.Only [.slots, .mem, .port]
      (a.changeSlot m fun s => { s with state := .superseded, deadline := none }) :=
    (Only.refl _ a).changeSlot
  rw [supersede_pinned old, marksSuperseded, ← first]
  exact left.raised marked.quiet _ _

end Part

/-- The part after the filing of a HEAD that supersedes a slot: the opening, then plate control (R29, R30, R44). -/
theorem State.files_superseding {s : State} {k : Fin 4} {before after : List Parcel} {c : Parcel} {n m : Fin 512}
    (up : s.resetn = true) (h : s.part.supersedes k before c after n m) :
    exec (.fileHead k) s = .next { s with
        part := (((s.part.filedFrom before after).pageOpened c n).supersede m n).tellCurrent n }
      ∧ n ≠ m ∧ c.validHead ∧ s.part.slots[n].state = .free
      ∧ (s.part.filedFrom before after).OpensOver c n m (((s.part.filedFrom before after).pageOpened c n).supersede m n)
      := by
  obtain ⟨next, kind, valid, newer, current, named, alone, free, below, empty⟩ := h
  have apart : n ≠ m := fun same => by
    rw [← same, Slot.current, free] at current
    exact nomatch current
  refine ⟨?_, apart, valid, free, Part.opensOver (p := s.part.filedFrom before after) empty apart⟩
  rw [State.files_head up next kind]
  rw [show s.part.setTransit (before ++ after) = s.part.filedFrom before after from rfl,
    Part.fileHead_supersedes (p := s.part.filedFrom before after) valid newer current named alone free below empty]

/-- Settles O27. -/
theorem headSupersedesTheCurrentSlot : Obligations.HeadSupersedesTheCurrentSlot := by
  refine ⟨fun s k before after c n m up h noPlates => ?calm,
    fun s k before after c n m i q up h follows state never width height pinned slot pins => ?follows,
    fun s k before after c n m i q up h follows exposing pins passes sweep room wf => ?exposing⟩
  case calm =>
    obtain ⟨run, -, -, -, opens⟩ := State.files_superseding up h
    have filed : s.part.Only [.transit] (s.part.filedFrom before after) := (Part.Only.refl _ _).setTransit
    have touched : s.part.Touches [mirrorRange n, mirrorRange m, reportRing, headerRange]
      (s.part.filedFrom before after) := (Part.Touches.refl _ _).setTransit
    have slots : (s.part.filedFrom before after).slots = s.part.slots := rfl
    have transit : (s.part.filedFrom before after).transit = before ++ after := rfl
    generalize ((s.part.filedFrom before after).pageOpened c n).supersede m n = q at run opens
    obtain ⟨opened, others, pinned, freed, only, touches⟩ := opens
    have all : s.part.Only [.transit, .slots, .reports, .mem, .port] q := (filed.mono (by simp)).trans
        (only.mono (by simp))
    have idle : q.noPlates := by
      obtain ⟨unarmed, empty⟩ := noPlates
      have plates : q.plates = s.part.plates := all .plates (by simp)
      have channels : q.channels = s.part.channels := all .channels (by simp)
      exact ⟨fun m => by rw [plates]; exact unarmed m, fun j => by rw [channels]; exact empty j⟩
    rw [Part.tellCurrent_noPlates idle] at run
    refine ⟨_, run, (only .transit (by simp)).trans transit, ?_, ?_, ?_, ?_, pinned, freed, others,
      State.part_congr all.eq_pick, (touched.trans touches).kept⟩
    · rw [opened]; rfl
    · rw [opened]; rfl
    · rw [opened]; rfl
    · rw [opened]; rfl
  case follows =>
    obtain ⟨run, apart, valid, -, opens⟩ := State.files_superseding up h
    obtain ⟨idle, empty, single, any, named⟩ := follows
    have slots : (s.part.filedFrom before after).slots = s.part.slots := rfl
    have plates : (s.part.filedFrom before after).plates = s.part.plates := rfl
    have channels : (s.part.filedFrom before after).channels = s.part.channels := rfl
    generalize s.part.filedFrom before after = a at *
    generalize (a.pageOpened c n).supersede m n = b at run opens
    obtain ⟨opened, -, kept, -, only, -⟩ := opens
    have plates := (only .plates (by simp)).trans plates
    have channels := (only .channels (by simp)).trans channels
    rw [slots] at kept
    have old := kept (Nat.ne_of_gt pins)
    have repins := Part.tellCurrent_follows (p := b) (i := i) (n := n) (m := m) (x := q) (by rw [plates]; exact state)
      (by rw [plates]; exact never) (by rw [plates]; exact single) (by rw [opened]; exact width.symm)
      (by rw [opened]; exact height.symm) (by rw [plates]; exact slot) apart (fun k => by rw [channels]; exact empty k)
      (by rw [opened]; exact Part.newSlot_broken valid) (fun j other => by rw [plates]; exact idle j other) any
      (by rw [plates, opened]; exact named) (by rw [plates]; exact pinned)
    generalize b.tellCurrent n = r at run repins
    obtain ⟨moved, taken, released, -⟩ := repins
    rw [plates] at moved
    have plate := Vector.get_of_eq_set moved
    rw [opened] at taken
    rw [old] at released
    refine ⟨_, run, by rw [plate]; rfl, by rw [plate]; rfl, by rw [plate]; rfl, by rw [plate]; rfl, ?_,
      fun j other => ?_, by rw [taken]; rfl, by rw [taken]; rfl, fun more => ?_, fun last => ?_⟩
    · rw [plate, Part.followedPlate, Part.repinnedPlate, Plate.setRes, Part.resolvedTo, opened, Part.newSlot, slots]
      rfl
    · rw [moved]
      exact Vector.set_other other
    · have still := released.1 fun h => absurd h.2 (Nat.not_le.mpr more)
      dsimp only
      rw [still]
      exact ⟨rfl, rfl⟩
    · exact released.2 rfl (Nat.le_of_eq last)
  case exposing =>
    obtain ⟨run, apart, -, -, opens⟩ := State.files_superseding up h
    obtain ⟨idle, empty, single, any, named⟩ := follows
    have writes : (s.part.filedFrom before after).Writes (1 + 2) := ⟨passes, sweep, room⟩
    have filed : s.part.Only [.transit] (s.part.filedFrom before after) := (Part.Only.refl _ _).setTransit
    have base : s.part.Touches [mirrorRange n, mirrorRange m, reportRing, headerRange]
        (s.part.filedFrom before after) :=
      (Part.Touches.refl _ _).setTransit
    have slots : (s.part.filedFrom before after).slots = s.part.slots := rfl
    have reports : (s.part.filedFrom before after).reports = s.part.reports := rfl
    generalize s.part.filedFrom before after = a at *
    obtain ⟨counted, last⟩ := Part.supersede_reports (c := c) writes apart (m := m)
      (by rw [slots]; exact Nat.ne_of_gt pins)
    generalize (a.pageOpened c n).supersede m n = b at run opens counted last
    obtain ⟨opened, -, -, -, only, touches⟩ := opens
    have plates := (only .plates (by simp)).trans (filed .plates (by simp))
    have channels := (only .channels (by simp)).trans (filed .channels (by simp))
    have tick := (only .tick (by simp)).trans (filed .tick (by simp))
    have touches := base.trans touches
    have written : b.reports.written = s.part.reports.written + 2 := by
      rw [counted, reports]
      unfold ReportUnit.writing
      dsimp only
      bv_omega
    have told := Part.tellCurrent_exposing (p := b) (i := i) (n := n) (x := q)
      (fun j other => by rw [plates]; exact idle j other) (fun k => by rw [channels]; exact empty k)
      (by rw [plates]; exact exposing) (by rw [plates]; exact single) any (by rw [plates, opened]; exact named)
    rw [told] at run
    have subject : b.remakeSubject i n = .plate
        { label := s.part.plates[i].copy.label, plate := i.val, placement := 0
          tail := leBytes 2 c.header.edition ++ leBytes 1 c.header.zone ++ leBytes 1 c.header.sep
            ++ leBytes 2 c.header.page
            ++ leBytes 2
              (if s.part.plates[i].res[(0 : Fin 4)].pinned then s.part.plates[i].res[(0 : Fin 4)].version else 0)
            ++ leBytes 2 c.header.version } := by
      rw [Part.remakeSubject, Part.plateForm, plates, opened]
      rfl
    obtain ⟨third, -⟩ := last.raised (Part.Quiet.refl b) .remakeAfterStart (b.remakeSubject i n)
    obtain ⟨-, records⟩ := b.raise_tells .remakeAfterStart (b.remakeSubject i n)
    have entry := records (Part.suppressed_none last.passes _) last.up (by have := last.unread; omega) (touches.wf wf)
    rw [Part.base_congr touches.cabase, written, tick] at entry
    refine ⟨_, run, (Part.raise_plates _ _ _).trans plates, (Part.raise_channels _ _ _).trans channels, ?_, ?_⟩
    · dsimp only
      rw [third, ReportUnit.writing]
      dsimp only
      rw [written]
      bv_omega
    · exact entry.trans (by rw [subject])

end Sys2Proof.Machine
end
